-- ==== Sys2Proof/Word.lean ====
section
/-! DEFINITION. The two word types of the FCO block: the byte of a frame or of the read space, and the 32-bit
command word (spec/00_scope.md R8 and R9, spec/30_encoding.md R70). -/

namespace Sys2Proof

/-- A byte of a frame, of the read space or of the checksum engine (R8). -/
abbrev Byte := BitVec 8

/-- A command word (R70). -/
abbrev Word := BitVec 32

end Sys2Proof
end

