-- ==== Sys2Proof/Config.lean ====
section
/-! DEFINITION. What is fixed for one block and never changes while it runs: the parameters of spec/00_scope.md R7.
The values the spec leaves OPEN are opaque constants, so no proof can see them. -/

namespace Sys2Proof

/-- `DELTA_MODE` of R7: how the tick delta is formed (spec/43_odometry.md R164). -/
inductive DeltaMode where
  /-- The difference of the readings modulo 2^16. -/
  | mod16
  /-- The literal integer difference. -/
  | int
  deriving DecidableEq, Repr

/-- The parameters a model takes as an argument (R7, spec/10_state.md R37). Every operation that depends on one
takes the whole record, so a claim can be stated for every block and a test for a named one (log entry 8). -/
structure Params where
  /-- `CHK_INIT`. -/
  chkInit : Byte
  /-- `CHK_STEP`, a total function of its two bytes (spec/40_checksum.md R100). -/
  chkStep : Byte → Byte → Byte
  /-- `CHK_XOROUT`. -/
  chkXorout : Byte
  /-- `TICK_LE` (spec/20_memory.md R56). -/
  tickLE : Bool
  /-- `DELTA_MODE` (R164). -/
  deltaMode : DeltaMode

/-- `CHK_INIT` is OPEN (R7, spec/92_eei_decisions.md D5): uninterpreted. DESIGN CHOICE, safe (log entry 4). -/
opaque Config.chkInit : Byte

/-- `CHK_STEP` is OPEN (R7, D5): uninterpreted. DESIGN CHOICE, safe (log entry 4). -/
opaque Config.chkStep : Byte → Byte → Byte

/-- `CHK_XOROUT` is OPEN (R7, D5): uninterpreted. DESIGN CHOICE, safe (log entry 4). -/
opaque Config.chkXorout : Byte

/-- `FCO_BASE` is OPEN and used by no rule of the spec (spec/20_memory.md R65), so no definition reads it.
DESIGN CHOICE, safe (log entry 7). -/
opaque Config.fcoBase : Nat

end Sys2Proof
end

