-- ==== Sys2Proof/Machine/Params.lean ====
section
/-! DEFINITION. The parameters of the modelled block: the OPEN checksum of Config, and the two decided defaults of
spec/00_scope.md R7. -/

namespace Sys2Proof.Machine

/-- The block's parameters: `CHK` uninterpreted (spec/92_eei_decisions.md D5, log entry 4), `TICK_LE = true` (D8, log
entry 5) and `DELTA_MODE = MOD16` (D10, log entry 6). -/
def blockParams : Params where
  chkInit := Config.chkInit
  chkStep := Config.chkStep
  chkXorout := Config.chkXorout
  tickLE := true
  deltaMode := .mod16

end Sys2Proof.Machine
end

