-- ==== Sys2Proof/Machine/State.lean ====
section
/-! DEFINITION. The state of the FCO block as plain data: every element of spec/10_state.md R20, the model's record of
the host's actions and of the bytes its reads returned, and the two reason types of a step that stops. -/

namespace Sys2Proof.Machine

/-- A CommandFrame: 12 bytes, index 0 first on the wire (spec/30_encoding.md R80, spec/20_memory.md R55). -/
abbrev CommandFrame := Vector Byte 12

/-- A TelemetryFrame: 20 bytes, index 0 first on the wire (spec/30_encoding.md R81, spec/20_memory.md R55). -/
abbrev TelemetryFrame := Vector Byte 20

/-- The values of FSTAT (R24). -/
inductive FrameStatus where
  /-- Reset; no DEC since. -/
  | none
  /-- The last DEC found a valid frame. -/
  | valid
  /-- The last DEC found a bad preamble. -/
  | preambleMismatch
  /-- The last DEC found a good preamble and a bad checksum. -/
  | checksumMismatch
  deriving DecidableEq, Repr

/-- The odometry record of one wheel (R30 to R34). -/
structure Wheel where
  /-- Direction at the last valid frame, an i8 of −1, 0 or +1 (R32). -/
  dir : BitVec 8
  /-- Signed speed at the last valid frame, an i16 (R33). -/
  spd : BitVec 16
  /-- Raw reading at the last valid frame, a u16 (R34). -/
  raw : BitVec 16
  /-- Accumulated tick total, a u32 read as i32 (R31). -/
  tck : BitVec 32
  deriving DecidableEq, Repr

/-- One odometry event for the sink (spec/43_odometry.md R168). -/
structure SinkEvent where
  leftDir : BitVec 8
  rightDir : BitVec 8
  leftTicks : BitVec 32
  rightTicks : BitVec 32
  leftSpeed : BitVec 16
  rightSpeed : BitVec 16
  deriving DecidableEq, Repr

/-- One action of the host: a command word, a read of one address of the read space (spec/00_scope.md R6), or the
reset event, which can arrive between any two commands (spec/70_reset_and_hazards.md R240). -/
inductive HostAction where
  | command (w : Word)
  | read (a : Byte)
  | reset
  deriving DecidableEq, Repr

/-- The state: the record of R20, then the model's own `port` and `reads`. -/
structure State where
  /-- `TX` (R21). -/
  tx : CommandFrame
  /-- `RX` (R22). -/
  rx : TelemetryFrame
  /-- `VF` (R23). -/
  vf : TelemetryFrame
  /-- `FSTAT` (R24). -/
  fstat : FrameStatus
  /-- `TXV` (R25). -/
  txv : Bool
  /-- `PERR` (R27). -/
  perr : Bool
  /-- `ILL` (R26). -/
  ill : Bool
  /-- `ACC` (R29). -/
  acc : Byte
  /-- The record `L` (R30). -/
  left : Wheel
  /-- The record `R` (R30). -/
  right : Wheel
  /-- `SINK`, oldest event first (R35). -/
  sink : List SinkEvent
  /-- The host's actions not yet performed, oldest first: the model's input, no state of the block (R37; DESIGN
  CHOICE, safe, log entry 1). -/
  port : List HostAction
  /-- The bytes the host's reads returned, oldest first: the observation of spec/00_scope.md R6, no state of the
  block (DESIGN CHOICE, safe, log entry 3). -/
  reads : List Byte
  deriving DecidableEq, Repr

/-- A wheel's record after reset (R20). -/
def Wheel.reset : Wheel := { dir := 0#8, spd := 0#16, raw := 0#16, tck := 0#32 }

/-- The state right after reset of the block with the given parameters: every element at the value of R20 and
spec/70_reset_and_hazards.md R240, no action waiting and no read made (log entries 1 and 3). -/
def State.resetWith (p : Params) : State where
  tx := Vector.replicate 12 0x00#8
  rx := Vector.replicate 20 0x00#8
  vf := Vector.replicate 20 0x00#8
  fstat := .none
  txv := false
  perr := false
  ill := false
  acc := p.chkInit
  left := Wheel.reset
  right := Wheel.reset
  sink := []
  port := []
  reads := []

/-- The state right after reset of the modelled block (log entry 8). -/
def State.reset : State := State.resetWith blockParams

/-- The reasons a step faults: there is none. No condition stops the block (spec/00_scope.md R6,
spec/60_exceptions.md R210), so nothing raises one (DEDUCED, safe, log entry 15). An ill-formed command is recorded
in ILL and the block goes on (R26). -/
inductive Fault where
  deriving DecidableEq, Repr

/-- The reasons a step refuses. -/
inductive Refusal where
  /-- Raised by an arm of exec whose instruction has no meaning yet; no arm raises it now. Safe: the model stops. -/
  | notModelled (mnemonic : String)
  deriving DecidableEq, Repr

end Sys2Proof.Machine
end

