-- ==== Sys2Proof/Machine/Ops.lean ====
section
/-! DEFINITION. The named operations over the state that commands and host actions share: one per kind of write of
spec/20_memory.md R59, the recording of an ill-formed command, the reset event, and the taking of the host's next
action. The block has no trap entry and no trap return (spec/60_exceptions.md R215 and R216): recording ILL is the
whole of what an exceptional command does. -/

namespace Sys2Proof.Machine

/-- Take the host's oldest waiting action from the port, if there is one: commands and reads take effect in the
order the host issues them (spec/20_memory.md R60). -/
def fetch (s : State) : Option (HostAction × State) :=
  match s.port with
  | [] => .none
  | a :: rest => some (a, { s with port := rest })

/-- Put a command word in front of the waiting actions (log entry 10). -/
def pushCommand (w : Word) (s : State) : State := { s with port := .command w :: s.port }

/-- With no action waiting the block keeps its state (spec/60_exceptions.md R223; after reset it waits for the first
command word, spec/70_reset_and_hazards.md R242). DEDUCED, safe (log entry 2). -/
def idle (s : State) : State := s

/-- What an ill-formed command does: `ILL <- 1`, nothing else (spec/44_buffer_and_control.md R192). -/
def recordIll (s : State) : State := { s with ill := true }

/-- Write the whole of TX and set TXV (spec/41_command_encoder.md R121). -/
def loadTx (frame : CommandFrame) (s : State) : State := { s with tx := frame, txv := true }

/-- Write one byte of RX (spec/44_buffer_and_control.md R191); an index outside RX writes nothing. -/
def writeRx (i : Nat) (b : Byte) (s : State) : State := { s with rx := s.rx.setIfInBounds i b }

/-- Write ACC (spec/40_checksum.md R102 and R103). -/
def setAcc (a : Byte) (s : State) : State := { s with acc := a }

/-- Write FSTAT (spec/10_state.md R24). -/
def setFstat (r : FrameStatus) (s : State) : State := { s with fstat := r }

/-- Copy a valid frame into VF and write PERR (spec/10_state.md R23 and R27). -/
def latchFrame (f : TelemetryFrame) (peerError : Bool) (s : State) : State :=
  { s with vf := f, perr := peerError }

/-- Write the left wheel's record (spec/43_odometry.md R169). -/
def setLeft (w : Wheel) (s : State) : State := { s with left := w }

/-- Write the right wheel's record (spec/43_odometry.md R169). -/
def setRight (w : Wheel) (s : State) : State := { s with right := w }

/-- Append one event to SINK (spec/00_scope.md R11, spec/10_state.md R35). -/
def emitSink (e : SinkEvent) (s : State) : State := { s with sink := s.sink ++ [e] }

/-- Record the byte a read returned (log entry 3). -/
def recordRead (b : Byte) (s : State) : State := { s with reads := s.reads ++ [b] }

/-- The reset event of the block with the given parameters: every element of R20 at its reset value, whatever the state before it
(spec/70_reset_and_hazards.md R240). The host's waiting actions and the reads already made are no state of the block
and stay (DEDUCED, safe, log entry 12). -/
def resetEvent (p : Params) (s : State) : State := { State.resetWith p with port := s.port, reads := s.reads }

end Sys2Proof.Machine
end

