-- ==== Sys2Proof/Machine/BufferControl.lean ====
section
/-! DEFINITION. The buffer and control commands NOP and RXWR (spec/44_buffer_and_control.md R190 and R191). -/

namespace Sys2Proof.Machine

/-- NOP (R190): nothing. -/
def execNop (s : State) : Host.Outcome State Fault Refusal := .next s

/-- RXWR (R191): `RX[idx] <- b`. A term whose index is 20 or more stands for an ill-formed word, which the decoder
never yields: it does what R192 says of that word (DEDUCED, safe, log entry 11). -/
def execRxwr (idx : BitVec 5) (b : Byte) (s : State) : Host.Outcome State Fault Refusal :=
  .next (if idx.toNat < 20 then writeRx idx.toNat b s else recordIll s)

end Sys2Proof.Machine
end

