-- ==== Sys2Proof/Machine/Operands.lean ====
section
/-! DEFINITION. The operands a command takes from a frame: the frame constants of spec/00_scope.md R7, the field
views of spec/30_encoding.md R81, the direction lanes of R82 and the byte order of the tick counters
(spec/20_memory.md R56). The operand fields of a command word are read by the decoder. -/

namespace Sys2Proof.Machine

/-- `CMD_HEADER` (R7). -/
def cmdHeader : List Byte := [0x55#8, 0xAA#8, 0x08#8, 0x10#8, 0x80#8]

/-- `PREAMBLE` (R7). -/
def preamble : List Byte := [0x55#8, 0xAA#8, 0x10#8, 0x01#8, 0xE0#8]

/-- `CMD_CHK_SPAN`: the command checksum covers the first 11 bytes (R7, spec/90_conflicts.md C1). -/
def cmdChkSpan : Nat := 11

/-- `TLM_CHK_SPAN`: the telemetry checksum covers the first 19 bytes (R7). -/
def tlmChkSpan : Nat := 19

/-- The 16-bit tick counter held in two frame bytes, `b0` at the lower offset (spec/20_memory.md R56). -/
def raw16 (tickLE : Bool) (b0 b1 : Byte) : BitVec 16 := if tickLE then b1 ++ b0 else b0 ++ b1

/-- `f.pre`, bytes 0..4 (R81). -/
def framePre (f : TelemetryFrame) : List Byte := f.toList.take 5

/-- `f.dir`, byte 5 (R81). -/
def frameDir (f : TelemetryFrame) : Byte := f[5]

/-- `f.spdL`, byte 6 (R81). -/
def frameSpdL (f : TelemetryFrame) : Byte := f[6]

/-- `f.spdR`, byte 7 (R81). -/
def frameSpdR (f : TelemetryFrame) : Byte := f[7]

/-- `f.res0`, bytes 8..9: nothing reads it but the checksum (R81, spec/42_telemetry_decoder.md R145). -/
def frameRes0 (f : TelemetryFrame) : List Byte := [f[8], f[9]]

/-- `f.pwrL`, byte 10: latched and read by nothing else (R81, spec/90_conflicts.md C8). -/
def framePwrL (f : TelemetryFrame) : Byte := f[10]

/-- `f.pwrR`, byte 11: latched and read by nothing else (R81, spec/90_conflicts.md C8). -/
def framePwrR (f : TelemetryFrame) : Byte := f[11]

/-- `f.err`, byte 12 (R81). -/
def frameErr (f : TelemetryFrame) : Byte := f[12]

/-- `f.rawL`, bytes 13..14 (R81, spec/20_memory.md R56). -/
def frameRawL (p : Params) (f : TelemetryFrame) : BitVec 16 := raw16 p.tickLE f[13] f[14]

/-- `f.rawR`, bytes 15..16 (R81, spec/20_memory.md R56). -/
def frameRawR (p : Params) (f : TelemetryFrame) : BitVec 16 := raw16 p.tickLE f[15] f[16]

/-- `f.res1`, bytes 17..18: nothing reads it but the checksum (R81, spec/42_telemetry_decoder.md R145). -/
def frameRes1 (f : TelemetryFrame) : List Byte := [f[17], f[18]]

/-- `f.chk`, byte 19 (R81). -/
def frameChk (f : TelemetryFrame) : Byte := f[19]

/-- The left lane of a direction byte, bits 7..6 (R82, spec/43_odometry.md R161). -/
def laneL (db : Byte) : BitVec 2 := db.extractLsb' 6 2

/-- The right lane of a direction byte, bits 5..4 (R82, spec/43_odometry.md R161). -/
def laneR (db : Byte) : BitVec 2 := db.extractLsb' 4 2

/-- `dirDecode` (spec/43_odometry.md R160): code 11 is +1, code 10 is −1, codes 00 and 01 are 0. -/
def dirDecode (c : BitVec 2) : Int :=
  if c = 0b11#2 then 1 else if c = 0b10#2 then -1 else 0

/-- `dirPack` (spec/41_command_encoder.md R120). -/
def dirPack (ld rd : Bool) : Byte :=
  (if ld then 0xC0#8 else 0x80#8) ||| (if rd then 0x30#8 else 0x20#8)

/-- The bytes of a register in the read space, the byte of bits 7..0 first (spec/20_memory.md R54). -/
def leBytes {w : Nat} (n : Nat) (v : BitVec w) : List Byte :=
  (List.range n).map fun k => v.extractLsb' (8 * k) 8

end Sys2Proof.Machine
end

