-- ==== Sys2Proof/Machine/Checksum.lean ====
section
/-! DEFINITION. The checksum function, its generator and verifier, and the checksum engine
(spec/40_checksum.md R100 to R107): the commands CRCCLR and CRCFEED. -/

namespace Sys2Proof.Machine

/-- `chk` (R100): a left fold of `CHK_STEP` from `CHK_INIT`, then an XOR with `CHK_XOROUT`. -/
def chk (p : Params) (bs : List Byte) : Byte := bs.foldl p.chkStep p.chkInit ^^^ p.chkXorout

/-- The CRCOUT register, `ACC xor CHK_XOROUT` (R104). -/
def crcOut (p : Params) (acc : Byte) : Byte := acc ^^^ p.chkXorout

/-- The checksum check of a telemetry frame (R106): all 8 bits of byte 19 against `chk` of the 19 bytes before it. -/
def checksumGood (p : Params) (f : TelemetryFrame) : Bool :=
  chk p (f.toList.take tlmChkSpan) == frameChk f

/-- CRCCLR over given parameters: `ACC <- CHK_INIT` (R102). -/
def clearAcc (p : Params) (s : State) : State := setAcc p.chkInit s

/-- CRCFEED over given parameters: `ACC <- CHK_STEP(ACC, b)` (R103). -/
def feedAcc (p : Params) (b : Byte) (s : State) : State := setAcc (p.chkStep s.acc b) s

/-- CRCCLR of the block with the given parameters (R102). -/
def execCrcclrWith (p : Params) (s : State) : Host.Outcome State Fault Refusal := .next (clearAcc p s)

/-- CRCFEED of the block with the given parameters (R103). -/
def execCrcfeedWith (p : Params) (b : Byte) (s : State) : Host.Outcome State Fault Refusal := .next (feedAcc p b s)

/-- CRCCLR (R102). -/
def execCrcclr (s : State) : Host.Outcome State Fault Refusal := execCrcclrWith blockParams s

/-- CRCFEED (R103). -/
def execCrcfeed (b : Byte) (s : State) : Host.Outcome State Fault Refusal := execCrcfeedWith blockParams b s

end Sys2Proof.Machine
end

