-- ==== Sys2Proof/Machine/Flags.lean ====
section
/-! DEFINITION. The flags: the code of FSTAT, the STATUS byte that shows them to the host, and the one flag a frame's
contents decide (spec/10_state.md R24, R27, R28). -/

namespace Sys2Proof.Machine

/-- The 2-bit code of FSTAT (R24). -/
def fstatCode : FrameStatus → BitVec 2
  | .none => 0#2
  | .valid => 1#2
  | .preambleMismatch => 2#2
  | .checksumMismatch => 3#2

/-- `STATUS = zext_8(ILL ‖ PERR ‖ TXV ‖ FSTAT[1:0])` (R28). -/
def statusByte (s : State) : Byte :=
  (BitVec.ofBool s.ill ++ BitVec.ofBool s.perr ++ BitVec.ofBool s.txv ++ fstatCode s.fstat).setWidth 8

/-- `PERR` of a valid frame: its error byte is non-zero (R27). -/
def peerError (err : Byte) : Bool := decide (err ≠ 0x00#8)

end Sys2Proof.Machine
end

