-- ==== Sys2Proof/Machine/Odometry.lean ====
section
/-! DEFINITION. The per-wheel odometry operation and the sink event (spec/43_odometry.md R160 to R169). Every step
computes on integers and narrows when it stores (spec/00_scope.md R9). -/

namespace Sys2Proof.Machine

/-- The signed speed `d × zext(s)` (R162). -/
def signedSpeed (d : Int) (s : Byte) : Int := d * (s.toNat : Int)

/-- The three conditions under which the baseline is 0 for this frame, and no other (R163). -/
def resetBase (w : Wheel) (d spd' : Int) : Bool :=
  decide (d = 0) || decide (d ≠ w.dir.toInt) || (decide (w.spd.toInt = 0) && decide (spd' ≠ 0))

/-- The baseline of this frame's delta (R163). -/
def baseline (w : Wheel) (d spd' : Int) : Int := if resetBase w d spd' then 0 else (w.raw.toNat : Int)

/-- The tick delta (R164). -/
def tickDelta (m : DeltaMode) (raw : BitVec 16) (base : Int) : Int :=
  match m with
  | .mod16 => ((raw.toNat : Int) - base) % 65536
  | .int => (raw.toNat : Int) - base

/-- `OdoUpdate` (R167): every value is read before any is written. -/
def odoUpdate (p : Params) (w : Wheel) (d : Int) (s : Byte) (raw : BitVec 16) : Wheel :=
  let spd' := signedSpeed d s
  let delta := tickDelta p.deltaMode raw (baseline w d spd')
  { dir := BitVec.ofInt 8 d
    spd := BitVec.ofInt 16 spd'
    raw := raw
    tck := BitVec.ofInt 32 ((w.tck.toNat : Int) + d * delta) }

/-- The left wheel's update from a frame: its own lane, speed byte and counter only (R169). -/
def odoLeft (p : Params) (f : TelemetryFrame) (w : Wheel) : Wheel :=
  odoUpdate p w (dirDecode (laneL (frameDir f))) (frameSpdL f) (frameRawL p f)

/-- The right wheel's update from a frame: its own lane, speed byte and counter only (R169). -/
def odoRight (p : Params) (f : TelemetryFrame) (w : Wheel) : Wheel :=
  odoUpdate p w (dirDecode (laneR (frameDir f))) (frameSpdR f) (frameRawR p f)

/-- The sink event of the stored records (R168). -/
def sinkEvent (l r : Wheel) : SinkEvent where
  leftDir := l.dir
  rightDir := r.dir
  leftTicks := l.tck
  rightTicks := r.tck
  leftSpeed := l.spd
  rightSpeed := r.spd

end Sys2Proof.Machine
end

