-- ==== Sys2Proof/Machine/Decoder.lean ====
section
/-! DEFINITION. The telemetry-frame decoder: the command DEC (spec/42_telemetry_decoder.md R140 to R145). -/

namespace Sys2Proof.Machine

/-- The preamble check (R140): all five bytes, all 8 bits of each. -/
def preambleGood (f : TelemetryFrame) : Bool := framePre f == preamble

/-- What a valid frame does (R142), in the order of the pseudocode: latch VF, FSTAT and PERR, update L, update R,
then emit the event of the values just stored. -/
def acceptFrame (p : Params) (f : TelemetryFrame) (s : State) : State :=
  let s1 := setFstat .valid (latchFrame f (peerError (frameErr f)) s)
  let s2 := setLeft (odoLeft p f s1.left) s1
  let s3 := setRight (odoRight p f s2.right) s2
  emitSink (sinkEvent s3.left s3.right) s3

/-- DEC over given parameters (R142): the preamble before the checksum (spec/60_exceptions.md R212), and a rejected
frame writes FSTAT only (R143). -/
def decodeRx (p : Params) (s : State) : State :=
  if preambleGood s.rx then
    if checksumGood p s.rx then acceptFrame p s.rx s
    else setFstat .checksumMismatch s
  else setFstat .preambleMismatch s

/-- DEC of the block with the given parameters (R142). -/
def execDecWith (p : Params) (s : State) : Host.Outcome State Fault Refusal := .next (decodeRx p s)

/-- DEC (R142). -/
def execDec (s : State) : Host.Outcome State Fault Refusal := execDecWith blockParams s

end Sys2Proof.Machine
end

