-- ==== Sys2Proof/Machine/Encoder.lean ====
section
/-! DEFINITION. The command-frame encoder: the command ENC (spec/41_command_encoder.md R120 to R123). -/

namespace Sys2Proof.Machine

/-- Bytes 0 to 10 of a command frame (R121, spec/30_encoding.md R80): `CMD_HEADER`, direction, speeds, three reserved
zeros. -/
def cmdBody (ls rs : Byte) (ld rd : Bool) : Vector Byte 11 :=
  #v[0x55#8, 0xAA#8, 0x08#8, 0x10#8, 0x80#8, dirPack ld rd, ls, rs, 0x00#8, 0x00#8, 0x00#8]

/-- The 12-byte command frame: the body, then `chk` of its first `CMD_CHK_SPAN` bytes (R121,
spec/40_checksum.md R105). -/
def encodeCommand (p : Params) (ls rs : Byte) (ld rd : Bool) : CommandFrame :=
  (cmdBody ls rs ld rd).push (chk p ((cmdBody ls rs ld rd).toList.take cmdChkSpan))

/-- ENC over given parameters (R121): all of TX at once, and `TXV <- 1`. -/
def encodeInto (p : Params) (ls rs : Byte) (ld rd : Bool) (s : State) : State :=
  loadTx (encodeCommand p ls rs ld rd) s

/-- ENC of the block with the given parameters (R121). -/
def execEncWith (p : Params) (ls rs : Byte) (ld rd : Bool) (s : State) : Host.Outcome State Fault Refusal :=
  .next (encodeInto p ls rs ld rd s)

/-- ENC (R121). -/
def execEnc (ls rs : Byte) (ld rd : Bool) (s : State) : Host.Outcome State Fault Refusal :=
  execEncWith blockParams ls rs ld rd s

end Sys2Proof.Machine
end

