-- ==== Sys2Proof/Syntax.lean ====
section
/-! DEFINITION. The commands of the block, one constructor per row of spec/opcode_table.json (spec/30_encoding.md
R73), with the operand fields of R72. -/

namespace Sys2Proof

/-- A command of the block. An ill-formed word is no command: the decoder rejects it (R76, R77). -/
inductive Instr where
  /-- NOP (spec/44_buffer_and_control.md R190). -/
  | nop
  /-- ENC (spec/41_command_encoder.md R121): left and right speed, left and right forward bit. -/
  | enc (ls rs : Byte) (ld rd : Bool)
  /-- DEC (spec/42_telemetry_decoder.md R142). -/
  | dec
  /-- CRCCLR (spec/40_checksum.md R102). -/
  | crcclr
  /-- CRCFEED (spec/40_checksum.md R103): the byte fed. -/
  | crcfeed (b : Byte)
  /-- RXWR (spec/44_buffer_and_control.md R191): the 5-bit buffer index and the byte. -/
  | rxwr (idx : BitVec 5) (b : Byte)
  deriving DecidableEq, Repr

end Sys2Proof
end

