-- ==== Sys2Proof/Machine/Dispatch.lean ====
section
/-! DEFINITION. One arm per command: the meaning of each is one direct call. -/

namespace Sys2Proof.Machine

/-- The step of one command (spec/30_encoding.md R73). -/
def exec (i : Instr) (s : State) : Host.Outcome State Fault Refusal :=
  match i with
  | .nop => Sys2Proof.Machine.execNop s
  | .enc ls rs ld rd => Sys2Proof.Machine.execEnc ls rs ld rd s
  | .dec => Sys2Proof.Machine.execDec s
  | .crcclr => Sys2Proof.Machine.execCrcclr s
  | .crcfeed b => Sys2Proof.Machine.execCrcfeed b s
  | .rxwr idx b => Sys2Proof.Machine.execRxwr idx b s

end Sys2Proof.Machine
end

