-- ==== Sys2Proof/WellFormed.lean ====
section
/-! DEFINITION. The one check a command term needs beyond its types: an RXWR index names one of the 20 bytes of
RX (spec/30_encoding.md R72 and R77). -/

namespace Sys2Proof

/-- A command whose operands are legal: the index of RXWR is below 20, every other operand is legal at its whole
width (R72). -/
def Instr.wf : Instr → Bool
  | .nop => true
  | .enc _ _ _ _ => true
  | .dec => true
  | .crcclr => true
  | .crcfeed _ => true
  | .rxwr idx _ => decide (idx.toNat < 20)

end Sys2Proof
end

