-- ==== Sys2Proof/Decode.lean ====
section
/-! DEFINITION. The decoder of command words, total and rejecting by name (spec/30_encoding.md R71 to R77), and
after it the encoder of R74. -/

namespace Sys2Proof

/-- Why a word is ill-formed (R77). The block records no reason (spec/60_exceptions.md R211): the names serve the
reader, and which one a word gets changes no step (log entry 16). -/
inductive Illegal where
  /-- The opcode is one of the reserved 0x06 to 0xFF. -/
  | reservedOpcode (op : Byte)
  /-- A defined opcode with a 1 in a bit that R71 marks 0. -/
  | reservedBits (op : Byte)
  /-- RXWR with an index of 20 to 31. -/
  | rxIndex (idx : BitVec 5)
  deriving DecidableEq, Repr

/-- What a word decodes to: exactly one command, or `Illegal` (R76). -/
inductive Decoded where
  | instr (i : Instr)
  | illegal (why : Illegal)
  deriving DecidableEq, Repr

/-- The opcode field `op`, bits 7..0 (R71). -/
def opField (w : Word) : Byte := w.extractLsb' 0 8

/-- Bits 15..8: `ls` of format E, `b` of formats F and W (R71). -/
def byteField (w : Word) : Byte := w.extractLsb' 8 8

/-- Bits 23..16: `rs` of format E (R71). -/
def rsField (w : Word) : Byte := w.extractLsb' 16 8

/-- Bit 24: `ld` of format E (R71). -/
def ldField (w : Word) : Bool := w.getLsbD 24

/-- Bit 25: `rd` of format E (R71). -/
def rdField (w : Word) : Bool := w.getLsbD 25

/-- Bits 20..16: `idx` of format W (R71). -/
def idxField (w : Word) : BitVec 5 := w.extractLsb' 16 5

/-- The name of an ill-formed word's defect (R77): a reserved opcode first, then an RXWR whose only defect is its
index, else a reserved bit. -/
def illegalReason (w : Word) : Illegal :=
  if 0x06#8 ≤ opField w then .reservedOpcode (opField w)
  else if opField w = 0x05#8 ∧ w.extractLsb' 21 11 = 0#11 then .rxIndex (idxField w)
  else .reservedBits (opField w)

/-- The decoder, in the order of R76's pseudocode. -/
def decode (w : Word) : Decoded :=
  if w = 0x00000000#32 then .instr .nop
  else if opField w = 0x01#8 ∧ w.extractLsb' 26 6 = 0#6 then
    .instr (.enc (byteField w) (rsField w) (ldField w) (rdField w))
  else if w = 0x00000002#32 then .instr .dec
  else if w = 0x00000003#32 then .instr .crcclr
  else if opField w = 0x04#8 ∧ w.extractLsb' 16 16 = 0#16 then .instr (.crcfeed (byteField w))
  else if opField w = 0x05#8 ∧ w.extractLsb' 21 11 = 0#11 ∧ (idxField w).toNat < 20 then
    .instr (.rxwr (idxField w) (byteField w))
  else .illegal (illegalReason w)

/-- The command word that carries the low `nbits` bits of `w`, the bits above them zero. -/
def tableWord (nbits w : Nat) : Word := BitVec.ofNat 32 (w % 2 ^ nbits)

/-- The instruction the decoder reads from a word numbered as spec/opcode_table.json numbers it: a command is one
32-bit word of the port, so there is no byte order to undo. -/
def decodeTableWord (nbits w : Nat) : Option Instr :=
  match decode (tableWord nbits w) with
  | .instr i => some i
  | .illegal _ => none

/-- The encoding functions of R74. -/
def encode : Instr → Word
  | .nop => 0x00000000#32
  | .enc ls rs ld rd =>
    0x01#32 ||| (ls.setWidth 32 <<< 8) ||| (rs.setWidth 32 <<< 16) |||
      ((BitVec.ofBool ld).setWidth 32 <<< 24) ||| ((BitVec.ofBool rd).setWidth 32 <<< 25)
  | .dec => 0x00000002#32
  | .crcclr => 0x00000003#32
  | .crcfeed b => 0x04#32 ||| (b.setWidth 32 <<< 8)
  | .rxwr idx b => 0x05#32 ||| (b.setWidth 32 <<< 8) ||| (idx.setWidth 32 <<< 16)

end Sys2Proof
end

