-- ==== Sys2Proof/Machine/ReadPort.lean ====
section
/-! DEFINITION. The read port: the map of spec/20_memory.md R51 as a list of windows, and READ (R52, R53). -/

namespace Sys2Proof.Machine

/-- A run of mapped addresses: its first address and its bytes in address order. -/
structure Window where
  base : Nat
  bytes : List Byte
  deriving DecidableEq, Repr

/-- The byte a window holds at an address, if the address lies in it. -/
def windowByte (a : Nat) (win : Window) : Option Byte :=
  if win.base ≤ a then win.bytes[a - win.base]? else .none

/-- The read map of R51, row by row; the multi-byte registers are little-endian (R54). -/
def readMap (p : Params) (s : State) : List Window :=
  [ { base := 0x00, bytes := s.tx.toList },
    { base := 0x10, bytes := s.rx.toList },
    { base := 0x28, bytes := s.vf.toList },
    { base := 0x3C, bytes := [statusByte s] },
    { base := 0x3D, bytes := [crcOut p s.acc] },
    { base := 0x40, bytes := [s.left.dir] },
    { base := 0x41, bytes := [s.right.dir] },
    { base := 0x42, bytes := leBytes 2 s.left.spd },
    { base := 0x44, bytes := leBytes 2 s.right.spd },
    { base := 0x46, bytes := leBytes 2 s.left.raw },
    { base := 0x48, bytes := leBytes 2 s.right.raw },
    { base := 0x4A, bytes := leBytes 4 s.left.tck },
    { base := 0x4E, bytes := leBytes 4 s.right.tck } ]

/-- `READ(a)` of the block with the given parameters: the mapped byte, and 0x00 where nothing is mapped (R52, R53). -/
def readWith (p : Params) (a : Byte) (s : State) : Byte :=
  ((readMap p s).findSome? (windowByte a.toNat)).getD 0x00#8

/-- `READ(a)` (R52). -/
def readByte (a : Byte) (s : State) : Byte := readWith blockParams a s

/-- The host's read of one address of the block with the given parameters: it changes nothing of the block (R52), and the byte joins the observation
(spec/00_scope.md R6). -/
def hostRead (p : Params) (a : Byte) (s : State) : State := recordRead (readWith p a s) s

end Sys2Proof.Machine
end

