-- ==== Sys2Proof/Machine/Port.lean ====
section
/-! DEFINITION. The host's side of a step: what one action does, and the taking of the next action (spec/00_scope.md
R5 and R6), for given parameters and a given meaning of commands. -/

namespace Sys2Proof.Machine

/-- What one host action does: a command word is decoded and run by `run`, or recorded in ILL when ill-formed
(spec/44_buffer_and_control.md R192); a read; or the reset event. -/
def performBy (p : Params) (run : Instr → State → Host.Outcome State Fault Refusal) (a : HostAction) (s : State) :
    Host.Outcome State Fault Refusal :=
  match a with
  | .command w =>
    match decode w with
    | .instr i => run i s
    | .illegal _ => .next (recordIll s)
  | .read a => .next (hostRead p a s)
  | .reset => .next (resetEvent p s)

/-- One step: the oldest waiting action, taken from the port; with none waiting the state stays (log entries 1
and 2). -/
def stepBy (p : Params) (run : Instr → State → Host.Outcome State Fault Refusal) (s : State) :
    Host.Outcome State Fault Refusal :=
  match fetch s with
  | .none => .next (idle s)
  | .some (a, s') => performBy p run a s'

end Sys2Proof.Machine
end

