-- ==== Sys2Proof/Machine/Step.lean ====
section
/-! DEFINITION. One step of the modelled block: the host's next action (spec/00_scope.md R5 and R6), its commands run
by exec. -/

namespace Sys2Proof.Machine

/-- One step performs the oldest waiting host action: a command word that decodes is run by exec, an ill-formed one is
recorded in ILL; a read; or the reset event (log entries 1, 2 and 8). -/
def step (s : State) : Host.Outcome State Fault Refusal := stepBy blockParams exec s

/-- The state with one command word waiting in front of every other action, so that the next step takes it (log
entry 10). -/
def State.withFetchWord (s : State) (nbits w : Nat) : State := pushCommand (tableWord nbits w) s

end Sys2Proof.Machine
end

