-- ==== Sys2Proof/Machine/Assembler.lean ====
section
/-! DEFINITION. The assembly notation of the command set (spec/30_encoding.md R83) and its pseudo-instructions (R84),
as functions on characters and on commands. The choices the notation leaves open are log entry 17. -/

namespace Sys2Proof.Machine

/-- `STOP` (R84). -/
def pseudoStop : List Instr := [.enc 0x00#8 0x00#8 false false]

/-- `RECOVER s` (R84). -/
def pseudoRecover (s : Byte) : List Instr := [.enc s s false false]

/-- `RXLOAD b0, ..., b19` (R84): the 20 bytes in index order. -/
def pseudoRxload (bytes : Vector Byte 20) : List Instr :=
  (List.range 20).zipWith (fun i b => .rxwr (BitVec.ofNat 5 i) b) bytes.toList

/-- `RECV b0, ..., b19` (R84). -/
def pseudoRecv (bytes : Vector Byte 20) : List Instr := pseudoRxload bytes ++ [.dec]

/-- `CRC b1, ..., bn` (R84), for any number of bytes. -/
def pseudoCrc (bytes : List Byte) : List Instr := .crcclr :: bytes.map .crcfeed

/-- An operand as written: a number, or one of the two direction names (R83). -/
inductive AsmOperand where
  | number (n : Nat)
  | fwd
  | bwd
  deriving DecidableEq, Repr

/-- The mnemonics of the notation: the six commands (R83) and the five pseudo-instructions (R84). -/
inductive AsmMnemonic where
  | nop | enc | dec | crcclr | crcfeed | rxwr
  | stop | recover | rxload | recv | crc
  deriving DecidableEq, Repr

/-- A byte operand, refused above 255 and never truncated (R83). -/
def asmByte : AsmOperand → Option Byte
  | .number n => if n < 256 then some (BitVec.ofNat 8 n) else none
  | .fwd => none
  | .bwd => none

/-- A direction operand: 0, 1, FWD or BWD (R83). -/
def asmDirection : AsmOperand → Option Bool
  | .number 0 => some false
  | .number 1 => some true
  | .number (_ + 2) => none
  | .fwd => some true
  | .bwd => some false

/-- An RX index operand, refused above 19 and never truncated (R83). -/
def asmIndex : AsmOperand → Option (BitVec 5)
  | .number n => if n < 20 then some (BitVec.ofNat 5 n) else none
  | .fwd => none
  | .bwd => none

/-- Byte operands, all of them or none. -/
def asmBytes : List AsmOperand → Option (List Byte)
  | [] => some []
  | o :: os => do
    let b ← asmByte o
    let bs ← asmBytes os
    return b :: bs

/-- Exactly 20 byte operands. -/
def asmFrame (ops : List AsmOperand) : Option (Vector Byte 20) := do
  let bs ← asmBytes ops
  if h : bs.toArray.size = 20 then some ⟨bs.toArray, h⟩ else none

/-- The commands of one line: refused where an operand is out of range, or where the operands are not the ones the
mnemonic takes (R83, R84). -/
def assemble (m : AsmMnemonic) (ops : List AsmOperand) : Option (List Instr) :=
  match m, ops with
  | .nop, [] => some [.nop]
  | .enc, [ls, rs, ld, rd] => do
    return [.enc (← asmByte ls) (← asmByte rs) (← asmDirection ld) (← asmDirection rd)]
  | .dec, [] => some [.dec]
  | .crcclr, [] => some [.crcclr]
  | .crcfeed, [b] => do return [.crcfeed (← asmByte b)]
  | .rxwr, [i, b] => do return [.rxwr (← asmIndex i) (← asmByte b)]
  | .stop, [] => some pseudoStop
  | .recover, [s] => do return pseudoRecover (← asmByte s)
  | .rxload, ops => do return pseudoRxload (← asmFrame ops)
  | .recv, ops => do return pseudoRecv (← asmFrame ops)
  | .crc, ops => do return pseudoCrc (← asmBytes ops)
  | _, _ => none

/-- The mnemonic a word of the notation names. -/
def mnemonicOf (word : List Char) : Option AsmMnemonic :=
  [("NOP", AsmMnemonic.nop), ("ENC", .enc), ("DEC", .dec), ("CRCCLR", .crcclr), ("CRCFEED", .crcfeed),
    ("RXWR", .rxwr), ("STOP", .stop), ("RECOVER", .recover), ("RXLOAD", .rxload), ("RECV", .recv), ("CRC", .crc)].findSome?
    fun row => if row.1.toList = word then some row.2 else none

/-- The value of a digit, in either letter case. -/
def digitValue (c : Char) : Option Nat :=
  if '0' ≤ c ∧ c ≤ '9' then some (c.toNat - '0'.toNat)
  else if 'a' ≤ c ∧ c ≤ 'f' then some (c.toNat - 'a'.toNat + 10)
  else if 'A' ≤ c ∧ c ≤ 'F' then some (c.toNat - 'A'.toNat + 10)
  else none

/-- Digits of one radix added to the number read so far. -/
def readDigits (radix : Nat) : List Char → Nat → Option Nat
  | [], acc => some acc
  | c :: cs, acc =>
    match digitValue c with
    | some d => if d < radix then readDigits radix cs (acc * radix + d) else none
    | none => none

/-- A number: `0x` and hexadecimal digits, or decimal digits (R83). -/
def readNumber : List Char → Option Nat
  | [] => none
  | ['0', 'x'] => none
  | '0' :: 'x' :: cs => readDigits 16 cs 0
  | c :: cs => readDigits 10 (c :: cs) 0

/-- An operand: a direction name or a number (R83). -/
def readOperand (word : List Char) : Option AsmOperand :=
  if word = "FWD".toList then some .fwd
  else if word = "BWD".toList then some .bwd
  else (readNumber word).map .number

/-- A space or a tab. -/
def isBlank (c : Char) : Bool := c == ' ' || c == '\t'

/-- The text without blanks at either end. -/
def trimBlanks (cs : List Char) : List Char :=
  ((cs.dropWhile isBlank).reverse.dropWhile isBlank).reverse

/-- The pieces between commas: one piece more than there are commas. -/
def splitCommas : List Char → List (List Char)
  | [] => [[]]
  | c :: cs =>
    if c = ',' then [] :: splitCommas cs
    else
      match splitCommas cs with
      | [] => [[c]]
      | w :: ws => (c :: w) :: ws

/-- Operands, all of them or none. -/
def readOperands : List (List Char) → Option (List AsmOperand)
  | [] => some []
  | w :: ws => do
    let o ← readOperand (trimBlanks w)
    let os ← readOperands ws
    return o :: os

/-- The commands of one line of text: the comment dropped from `;` on, then the mnemonic, then operands separated by
commas (R83). A line with no mnemonic gives no command; `none` is a refusal. -/
def assembleLine (line : List Char) : Option (List Instr) :=
  let text := trimBlanks (line.takeWhile (· ≠ ';'))
  if text = [] then some []
  else do
    let m ← mnemonicOf (text.takeWhile (! isBlank ·))
    let rest := trimBlanks (text.dropWhile (! isBlank ·))
    let ops ← if rest = [] then some [] else readOperands (splitCommas rest)
    assemble m ops

/-- A program: the command words of its lines in order, refused as a whole when a line is (R83). -/
def assembleProgram : List (List Char) → Option (List Word)
  | [] => some []
  | l :: ls => do
    let is ← assembleLine l
    let ws ← assembleProgram ls
    return is.map encode ++ ws

end Sys2Proof.Machine
end

