-- ==== Sys2Proof/Machine/Parametric.lean ====
section
/-! DEFINITION. The machine of every block: commands, step, reset and core with the parameters of spec/00_scope.md R7
as an argument. The modelled block is this machine at blockParams (log entry 8). -/

namespace Sys2Proof.Machine

/-- The step of one command of the block with the given parameters (spec/30_encoding.md R73). -/
def execWith (p : Params) (i : Instr) (s : State) : Host.Outcome State Fault Refusal :=
  match i with
  | .nop => execNop s
  | .enc ls rs ld rd => execEncWith p ls rs ld rd s
  | .dec => execDecWith p s
  | .crcclr => execCrcclrWith p s
  | .crcfeed b => execCrcfeedWith p b s
  | .rxwr idx b => execRxwr idx b s

/-- One step of the block with the given parameters. -/
def stepWith (p : Params) (s : State) : Host.Outcome State Fault Refusal := stepBy p (execWith p) s

/-- The block with the given parameters, as a machine the host can run: R7's model with its arguments. -/
def coreWith (p : Params) : Host.Core :=
  { State := State, Fault := Fault, Refusal := Refusal, step := stepWith p, reset := State.resetWith p }

end Sys2Proof.Machine
end

