-- ==== Sys2Proof/Safety.lean ====
section
/-! DEFINITION. The terms in which claims about the block are stated: the recorded fault, the well-formed command
frame, the valid telemetry frame, and the invariant of its registers. -/

namespace Sys2Proof.Machine

/-- No fault is recorded (spec/10_state.md R26, spec/60_exceptions.md R221). -/
abbrev NoFaultRecorded (s : State) : Prop := s.ill = false

/-- A well-formed command frame (spec/41_command_encoder.md R122). -/
def commandFrameGood (p : Params) (f : CommandFrame) : Bool :=
  f.toList.take 5 == cmdHeader
    && [0xA0#8, 0xB0#8, 0xE0#8, 0xF0#8].contains f[5]
    && (f.toList.drop 8).take 3 == [0x00#8, 0x00#8, 0x00#8]
    && f[11] == chk p (f.toList.take cmdChkSpan)

/-- A valid telemetry frame: it passes the preamble check and the checksum check (spec/00_scope.md R13, "Valid
frame"). -/
def frameValid (p : Params) (f : TelemetryFrame) : Bool := preambleGood f && checksumGood p f

/-- A wheel's record shows a frame's lane, speed byte and raw reading (spec/10_state.md R32 to R34): the direction is
the decoded lane, the speed is direction times speed byte, the raw reading is the frame's. -/
structure WheelShows (w : Wheel) (lane : BitVec 2) (spd : Byte) (raw : BitVec 16) : Prop where
  dir : w.dir.toInt = dirDecode lane
  spd : w.spd.toInt = dirDecode lane * (spd.toNat : Int)
  raw : w.raw = raw

/-- The invariant of the registers of the block with the given parameters. -/
structure Inv (p : Params) (s : State) : Prop where
  /-- TX is all zero before the first ENC, and a well-formed command frame after it (spec/10_state.md R25,
  spec/41_command_encoder.md R122). -/
  tx : if s.txv then commandFrameGood p s.tx = true else s.tx = Vector.replicate 12 0x00#8
  /-- The left record shows the frame in VF (spec/10_state.md R23, R30 to R34). -/
  left : WheelShows s.left (laneL (frameDir s.vf)) (frameSpdL s.vf) (frameRawL p s.vf)
  /-- The right record shows the frame in VF. -/
  right : WheelShows s.right (laneR (frameDir s.vf)) (frameSpdR s.vf) (frameRawR p s.vf)
  /-- PERR is the error byte of the frame in VF (spec/10_state.md R27). -/
  perr : s.perr = decide (frameErr s.vf ≠ 0x00#8)
  /-- Before the first valid frame VF and both totals are zero; after it VF is a valid frame, and the last event
  carries the stored records (spec/10_state.md R23, R35, spec/43_odometry.md R168). -/
  history : if s.sink = [] then s.vf = Vector.replicate 20 0x00#8 ∧ s.left.tck = 0#32 ∧ s.right.tck = 0#32
    else frameValid p s.vf = true ∧ s.sink.getLast? = some (sinkEvent s.left s.right)
  /-- FSTAT is VALID only once a frame was accepted, and NONE only before the first DEC (spec/10_state.md R24). -/
  fstat : (s.fstat = .valid → s.sink ≠ []) ∧ (s.fstat = .none → s.sink = [])

/-- One wheel before and after a valid frame, as the rules of spec/43_odometry.md say it of the registers read as
numbers: the speed of R162, the baseline of R163, the delta of R164, the total of R165 and the stores of R166. -/
def OdoFollowsRules (m : DeltaMode) (w w' : Wheel) (d : Int) (s : Byte) (raw : Nat) : Prop :=
  let spd' : Int := d * (s.toNat : Int)
  let base : Int :=
    if d = 0 ∨ d ≠ w.dir.toInt ∨ (w.spd.toInt = 0 ∧ spd' ≠ 0) then 0 else (w.raw.toNat : Int)
  let delta : Int :=
    match m with
    | .mod16 => ((raw : Int) - base) % 2 ^ 16
    | .int => (raw : Int) - base
  w'.dir.toInt = d ∧ w'.spd.toInt = spd' ∧ w'.raw.toNat = raw ∧
    (w'.tck.toNat : Int) = ((w.tck.toNat : Int) + d * delta) % 2 ^ 32

/-- The command a host action performs, if it performs one: a word that decodes to it (spec/30_encoding.md R76). -/
def commandOf : HostAction → Option Instr
  | .command w =>
    match decode w with
    | .instr i => some i
    | .illegal _ => none
  | .read _ => none
  | .reset => none

/-- An action is an ill-formed command: a word that decodes to `Illegal` (spec/44_buffer_and_control.md R192). -/
def isIllFormed : HostAction → Bool
  | .command w =>
    match decode w with
    | .instr _ => false
    | .illegal _ => true
  | .read _ => false
  | .reset => false

/-- The byte an action feeds to the checksum engine, if it feeds one (spec/40_checksum.md R103). -/
def fedByte (a : HostAction) : Option Byte :=
  match commandOf a with
  | some (.crcfeed b) => some b
  | _ => none

/-- Commands one after another, stopping at the first that stops (spec/20_memory.md R60). -/
def execAll : List Instr → State → Host.Outcome State Fault Refusal
  | [], s => .next s
  | i :: is, s =>
    match exec i s with
    | .next s' => execAll is s'
    | .fault r => .fault r
    | .refused r => .refused r

end Sys2Proof.Machine
end

