-- ==== Sys2Proof/Certificates/Slice0/Obligations.lean ====
section
/-! DEFINITION. The statements for the provers, from the numbered rules of spec/. Each names in its docstring the rule
it formalises; OBLIGATIONS.json lists them. -/

open Sys2Proof Sys2Proof.Machine

/-! ### Encoding -/

/-- R75: the six worked encodings, read both ways. -/
def Obligations.WorkedEncodingsDecode : Prop :=
  (decode 0x00000001#32 = .instr (.enc 0#8 0#8 false false) ∧
    encode (.enc 0#8 0#8 false false) = 0x00000001#32) ∧
  (decode 0x03326401#32 = .instr (.enc 100#8 50#8 true true) ∧
    encode (.enc 100#8 50#8 true true) = 0x03326401#32) ∧
  (decode 0x01FFFF01#32 = .instr (.enc 255#8 255#8 true false) ∧
    encode (.enc 255#8 255#8 true false) = 0x01FFFF01#32) ∧
  (decode 0x0000FF04#32 = .instr (.crcfeed 0xFF#8) ∧ encode (.crcfeed 0xFF#8) = 0x0000FF04#32) ∧
  (decode 0x0013EB05#32 = .instr (.rxwr 19#5 0xEB#8) ∧ encode (.rxwr 19#5 0xEB#8) = 0x0013EB05#32) ∧
  (decode 0x00005505#32 = .instr (.rxwr 0#5 0x55#8) ∧ encode (.rxwr 0#5 0x55#8) = 0x00005505#32)

/-- R74 and R76: decoding the word of any well-formed command gives that command back. -/
def Obligations.DecodeOfEncodeIsTheCommand : Prop :=
  ∀ i : Instr, i.wf = true → decode (encode i) = .instr i

/-- R74, R76 and decision D3 (every word has exactly one meaning): a word that decodes to a command is that command's
encoding, and the command is well-formed. -/
def Obligations.EncodeOfDecodeIsTheWord : Prop :=
  ∀ (w : Word) (i : Instr), decode w = .instr i → i.wf = true ∧ encode i = w

/-- R73: the decoder accepts a row's words exactly by the row's match and mask (and the value check of RXWR), and
every word with an opcode not listed is ill-formed. -/
def Obligations.DecoderFollowsMatchAndMask : Prop :=
  ∀ w : Word,
    (decode w = .instr .nop ↔ w &&& 0xFFFFFFFF#32 = 0x00000000#32) ∧
    ((∃ ls rs ld rd, decode w = .instr (.enc ls rs ld rd)) ↔ w &&& 0xFC0000FF#32 = 0x00000001#32) ∧
    (decode w = .instr .dec ↔ w &&& 0xFFFFFFFF#32 = 0x00000002#32) ∧
    (decode w = .instr .crcclr ↔ w &&& 0xFFFFFFFF#32 = 0x00000003#32) ∧
    ((∃ b, decode w = .instr (.crcfeed b)) ↔ w &&& 0xFFFF00FF#32 = 0x00000004#32) ∧
    ((∃ idx b, decode w = .instr (.rxwr idx b)) ↔
      w &&& 0xFFE000FF#32 = 0x00000005#32 ∧ ((w >>> 16) &&& 0x1F#32).toNat < 20) ∧
    (6 ≤ (w &&& 0xFF#32).toNat → ∃ why, decode w = .illegal why)

/-- R71 and R72: each operand is the unsigned number in its field, used unchanged. -/
def Obligations.OperandsAreTheFieldsUnchanged : Prop :=
  ∀ w : Word,
    (∀ ls rs ld rd, decode w = .instr (.enc ls rs ld rd) →
      ls.toNat = w.toNat / 2 ^ 8 % 2 ^ 8 ∧ rs.toNat = w.toNat / 2 ^ 16 % 2 ^ 8 ∧
      ld.toNat = w.toNat / 2 ^ 24 % 2 ∧ rd.toNat = w.toNat / 2 ^ 25 % 2) ∧
    (∀ b, decode w = .instr (.crcfeed b) → b.toNat = w.toNat / 2 ^ 8 % 2 ^ 8) ∧
    (∀ idx b, decode w = .instr (.rxwr idx b) →
      b.toNat = w.toNat / 2 ^ 8 % 2 ^ 8 ∧ idx.toNat = w.toNat / 2 ^ 16 % 2 ^ 5 ∧ idx.toNat < 20)

/-! ### The step -/

/-- R5 and R6: when the host's next action is a word that decodes to a command, the step is exec of that command at
the state with the action taken from the port. -/
def Obligations.StepRunsTheDecodedCommand : Prop :=
  ∀ (s : State) (w : Word) (rest : List HostAction) (i : Instr),
    s.port = .command w :: rest → decode w = .instr i → step s = exec i { s with port := rest }

/-- Log entry 10 (the model's choice): a word placed for fetching is the command the very next step runs. -/
def Obligations.FetchedWordRunsNext : Prop :=
  ∀ (s : State) (nbits w : Nat) (i : Instr),
    decodeTableWord nbits w = some i → step (s.withFetchWord nbits w) = exec i s

/-- R192: a word of each ill-formed kind sets ILL and writes nothing else; a well-formed command does not clear it;
word 0x00000006 at reset shows STATUS 0x10. -/
def Obligations.IllFormedWordSetsOnlyIll : Prop :=
  (∀ (s : State) (w : Word) (rest : List HostAction), s.port = .command w :: rest →
    (6 ≤ (w &&& 0xFF#32).toNat ∨
      ((w &&& 0xFF#32 = 0#32 ∨ w &&& 0xFF#32 = 2#32 ∨ w &&& 0xFF#32 = 3#32) ∧ w &&& 0xFFFFFF00#32 ≠ 0#32) ∨
      (w &&& 0xFF#32 = 1#32 ∧ w &&& 0xFC000000#32 ≠ 0#32) ∨
      (w &&& 0xFF#32 = 4#32 ∧ w &&& 0xFFFF0000#32 ≠ 0#32) ∨
      (w &&& 0xFF#32 = 5#32 ∧ w &&& 0xFFE00000#32 ≠ 0#32) ∨
      (w &&& 0xFF#32 = 5#32 ∧ 20 ≤ ((w >>> 16) &&& 0x1F#32).toNat)) →
    step s = .next { s with port := rest, ill := true }) ∧
  (∀ (i : Instr) (s t : State), i.wf = true → s.ill = true → exec i s = .next t → t.ill = true) ∧
  ∃ t, step { State.reset with port := [.command 0x00000006#32] } = .next t ∧ readByte 0x3C#8 t = 0x10#8

/-- R52 and R6: a read returns the mapped byte of the current state and changes no element of the block; the byte
joins the observation (log entry 3). -/
def Obligations.ReadChangesOnlyTheObservation : Prop :=
  ∀ (s : State) (a : Byte) (rest : List HostAction), s.port = .read a :: rest →
    step s = .next { s with port := rest, reads := s.reads ++ [readByte a s] }

/-- R240: the reset event writes every element with its reset value, whatever the state before it; STATUS is then
0x00 and CRCOUT is chk of the empty sequence. -/
def Obligations.ResetEventWritesEveryElement : Prop :=
  ∀ (s : State) (rest : List HostAction), s.port = .reset :: rest →
    ∃ t, step s = .next t ∧
      (∀ i : Fin 12, t.tx[i] = 0#8) ∧ (∀ i : Fin 20, t.rx[i] = 0#8) ∧ (∀ i : Fin 20, t.vf[i] = 0#8) ∧
      t.fstat = .none ∧ t.txv = false ∧ t.perr = false ∧ t.ill = false ∧ t.acc = Config.chkInit ∧
      t.left = { dir := 0#8, spd := 0#16, raw := 0#16, tck := 0#32 } ∧
      t.right = { dir := 0#8, spd := 0#16, raw := 0#16, tck := 0#32 } ∧ t.sink = [] ∧
      readByte 0x3C#8 t = 0x00#8 ∧ readByte 0x3D#8 t = Config.chkInit ^^^ Config.chkXorout

/-- R242 and R223 (an inference, log entry 2): with no action waiting the block keeps its state. -/
def Obligations.IdlePortKeepsTheState : Prop :=
  ∀ s : State, s.port = [] → step s = .next s

/-- R6 and R210: the block never halts, traps or refuses; every state has a next state. -/
def Obligations.EveryStateHasANextState : Prop :=
  ∀ s : State, ∃ t, step s = .next t

/-- R60: what a sequence of actions does depends on none issued after it. Running the first actions of a longer
sequence leaves exactly the later ones waiting, and everything else is as if they had never been issued. -/
def Obligations.LaterActionsDoNotAffectEarlierOnes : Prop :=
  ∀ (xs ys : List HostAction) (s : State),
    ∃ t, Sys2Proof.core.run xs.length { s with port := xs ++ ys } = .next t ∧ t.port = ys ∧
      Sys2Proof.core.run xs.length { s with port := xs } = .next { t with port := [] }

/-! ### Buffer and control commands -/

/-- R190: NOP changes nothing, and only the all-zero word is NOP. -/
def Obligations.NopChangesNothing : Prop :=
  (∀ s : State, exec .nop s = .next s) ∧ ∀ w : Word, decode w = .instr .nop ↔ w = 0#32

/-- R191: RXWR writes one byte of RX and nothing else, whatever RX held; a word with a reserved bit or an index of 20
or more is ill-formed. -/
def Obligations.RxwrWritesOneByte : Prop :=
  (∀ (s : State) (idx : BitVec 5) (b : Byte), idx.toNat < 20 →
    ∃ rx : TelemetryFrame, exec (.rxwr idx b) s = .next { s with rx := rx } ∧
      ∀ j : Fin 20, rx[j] = if j.val = idx.toNat then b else s.rx[j]) ∧
  ∀ w : Word, w &&& 0xFF#32 = 5#32 →
    (w &&& 0xFFE00000#32 ≠ 0#32 ∨ 20 ≤ ((w >>> 16) &&& 0x1F#32).toNat) → ∃ why, decode w = .illegal why

/-- The frame of RXWR in the read space (R51, R191): the byte at `0x10 + idx` reads as `b`, every other address as
before. -/
def Obligations.RxwrReadFrame : Prop :=
  ∀ (s : State) (idx : BitVec 5) (b : Byte), idx.toNat < 20 →
    ∃ t, exec (.rxwr idx b) s = .next t ∧
      ∀ a : Byte, readByte a t = if a.toNat = 0x10 + idx.toNat then b else readByte a s

/-- Log entry 11 (an inference from R191 and R192): an RXWR term with an index outside RX does what R192 says of an
ill-formed word. -/
def Obligations.RxwrOutsideRxSetsOnlyIll : Prop :=
  ∀ (s : State) (idx : BitVec 5) (b : Byte), 20 ≤ idx.toNat →
    exec (.rxwr idx b) s = .next { s with ill := true }

/-! ### Checksum engine -/

/-- R102: CRCCLR, word 0x00000003, loads CHK_INIT and nothing else; CRCOUT is then chk of the empty sequence. -/
def Obligations.CrcclrLoadsTheInitialValue : Prop :=
  (∀ s : State, exec .crcclr s = .next { s with acc := Config.chkInit } ∧
    readByte 0x3D#8 { s with acc := Config.chkInit } = Config.chkInit ^^^ Config.chkXorout) ∧
  ∀ w : Word, decode w = .instr .crcclr ↔ w = 0x00000003#32

/-- R103: CRCFEED steps ACC with the byte and writes nothing else; with a bit of 31..16 set the word is
ill-formed. -/
def Obligations.CrcfeedStepsTheAccumulator : Prop :=
  (∀ (s : State) (b : Byte), exec (.crcfeed b) s = .next { s with acc := Config.chkStep s.acc b }) ∧
  ∀ w : Word, w &&& 0xFF#32 = 4#32 → w &&& 0xFFFF0000#32 ≠ 0#32 → ∃ why, decode w = .illegal why

/-- R107: from any state, after CRCCLR and then any actions with no CRCCLR and no reset among them (other commands,
reads and ill-formed words in any order), CRCOUT is chk of the bytes fed; and feeding the first 11 bytes of TX after an
ENC gives TX[11]. -/
def Obligations.EngineComputesChkOfTheFedBytes : Prop :=
  (∀ (acts : List HostAction) (s : State),
    (∀ a ∈ acts, a ≠ .reset ∧ commandOf a ≠ some .crcclr) →
    ∃ t, Sys2Proof.core.run (acts.length + 1) { s with port := .command 0x00000003#32 :: acts } = .next t ∧
      readByte 0x3D#8 t = (acts.filterMap fedByte).foldl Config.chkStep Config.chkInit ^^^ Config.chkXorout) ∧
  ∀ (s t : State) (ls rs : Byte) (ld rd : Bool), exec (.enc ls rs ld rd) s = .next t →
    ∃ u, execAll (pseudoCrc (t.tx.toList.take 11)) t = .next u ∧ readByte 0x3D#8 u = u.tx[11] ∧ u.tx = t.tx

/-- R29: ENC, DEC and the buffer commands neither read nor write ACC, and ACC shows at CRCOUT alone. -/
def Obligations.OnlyTheEngineSeesAcc : Prop :=
  (∀ (i : Instr) (s t : State) (x : Byte), i ≠ .crcclr → (∀ b, i ≠ .crcfeed b) → exec i s = .next t →
    t.acc = s.acc ∧ exec i { s with acc := x } = .next { t with acc := x }) ∧
  (∀ (s : State) (x a : Byte), a ≠ 0x3D#8 → readByte a { s with acc := x } = readByte a s) ∧
  ∀ s : State, readByte 0x3D#8 s = s.acc ^^^ Config.chkXorout

/-! ### Encoder -/

/-- R120, R121, R105 and R80: ENC writes all 12 bytes of TX with the frame of its operands, sets TXV and writes nothing
else; a word with a bit of 31..26 set is ill-formed. -/
def Obligations.EncBuildsTheCommandFrame : Prop :=
  (∀ (s : State) (ls rs : Byte) (ld rd : Bool),
    let dir : Byte := (if ld then 0xC0#8 else 0x80#8) ||| (if rd then 0x30#8 else 0x20#8)
    let body : List Byte := [0x55#8, 0xAA#8, 0x08#8, 0x10#8, 0x80#8, dir, ls, rs, 0x00#8, 0x00#8, 0x00#8]
    exec (.enc ls rs ld rd) s =
      .next { s with
        tx := #v[0x55#8, 0xAA#8, 0x08#8, 0x10#8, 0x80#8, dir, ls, rs, 0x00#8, 0x00#8, 0x00#8,
          body.foldl Config.chkStep Config.chkInit ^^^ Config.chkXorout]
        txv := true }) ∧
  ∀ w : Word, w &&& 0xFF#32 = 1#32 → w &&& 0xFC000000#32 ≠ 0#32 → ∃ why, decode w = .illegal why

/-- R122: after any ENC, TX is a well-formed command frame. -/
def Obligations.EncLeavesAWellFormedFrame : Prop :=
  ∀ (s : State) (ls rs : Byte) (ld rd : Bool),
    ∃ t, exec (.enc ls rs ld rd) s = .next t ∧
      t.tx.toList.take 5 = [0x55#8, 0xAA#8, 0x08#8, 0x10#8, 0x80#8] ∧
      (t.tx[5] = 0xA0#8 ∨ t.tx[5] = 0xB0#8 ∨ t.tx[5] = 0xE0#8 ∨ t.tx[5] = 0xF0#8) ∧
      (t.tx[8] = 0#8 ∧ t.tx[9] = 0#8 ∧ t.tx[10] = 0#8) ∧
      t.tx[11] = (t.tx.toList.take 11).foldl Config.chkStep Config.chkInit ^^^ Config.chkXorout

/-- The frame of ENC in the read space (R51, R121): addresses 0x00 to 0x0B read as the new frame, STATUS gains TXV, and
every other address reads as before. -/
def Obligations.EncReadFrame : Prop :=
  ∀ (s : State) (ls rs : Byte) (ld rd : Bool),
    ∃ t, exec (.enc ls rs ld rd) s = .next t ∧
      (∀ i : Fin 12, readByte (BitVec.ofNat 8 i.val) t = t.tx[i]) ∧
      readByte 0x3C#8 t = (readByte 0x3C#8 s ||| 0x04#8) ∧
      ∀ a : Byte, 12 ≤ a.toNat → a ≠ 0x3C#8 → readByte a t = readByte a s

/-- R170: the lanes ENC packs decode to +1 for a forward bit and to −1 otherwise. -/
def Obligations.PackedLanesDecodeBack : Prop :=
  ∀ ld rd : Bool,
    dirDecode (laneL (dirPack ld rd)) = (if ld then 1 else -1) ∧
    dirDecode (laneR (dirPack ld rd)) = (if rd then 1 else -1) ∧
    dirDecode (laneL (dirPack ld rd)) ≠ 0 ∧ dirDecode (laneR (dirPack ld rd)) ≠ 0

/-! ### Decoder -/

/-- R140: a frame that differs from the preamble in any of its first five bytes is rejected with PREAMBLE_MISMATCH,
regardless of the other bytes, and DEC writes nothing else (R143). -/
def Obligations.DecRejectsABadPreamble : Prop :=
  ∀ s : State,
    ¬ (s.rx[0] = 0x55#8 ∧ s.rx[1] = 0xAA#8 ∧ s.rx[2] = 0x10#8 ∧ s.rx[3] = 0x01#8 ∧ s.rx[4] = 0xE0#8) →
    exec .dec s = .next { s with fstat := .preambleMismatch }

/-- R106, R143 and R212: a good preamble and a trailing byte that is not chk of the 19 bytes before it gives
CHECKSUM_MISMATCH, and DEC writes nothing else. -/
def Obligations.DecRejectsABadChecksum : Prop :=
  ∀ s : State,
    s.rx[0] = 0x55#8 ∧ s.rx[1] = 0xAA#8 ∧ s.rx[2] = 0x10#8 ∧ s.rx[3] = 0x01#8 ∧ s.rx[4] = 0xE0#8 →
    (s.rx.toList.take 19).foldl Config.chkStep Config.chkInit ^^^ Config.chkXorout ≠ s.rx[19] →
    exec .dec s = .next { s with fstat := .checksumMismatch }

/-- R142 with R161 to R168: DEC of a valid frame latches it, sets FSTAT and PERR, updates both wheels by the odometry
rules (tick counters little-endian, deltas modulo 2^16, the decided defaults D8 and D10), appends one event of the values
just stored, and writes nothing else. -/
def Obligations.DecAcceptsAValidFrame : Prop :=
  ∀ s : State,
    s.rx[0] = 0x55#8 ∧ s.rx[1] = 0xAA#8 ∧ s.rx[2] = 0x10#8 ∧ s.rx[3] = 0x01#8 ∧ s.rx[4] = 0xE0#8 →
    (s.rx.toList.take 19).foldl Config.chkStep Config.chkInit ^^^ Config.chkXorout = s.rx[19] →
    let dL : Int := if s.rx[5] &&& 0xC0#8 = 0xC0#8 then 1 else if s.rx[5] &&& 0xC0#8 = 0x80#8 then -1 else 0
    let dR : Int := if s.rx[5] &&& 0x30#8 = 0x30#8 then 1 else if s.rx[5] &&& 0x30#8 = 0x20#8 then -1 else 0
    ∃ l r : Wheel,
      exec .dec s = .next { s with
        vf := s.rx, fstat := .valid, perr := decide (s.rx[12] ≠ 0#8), left := l, right := r
        sink := s.sink ++ [{ leftDir := l.dir, rightDir := r.dir, leftTicks := l.tck, rightTicks := r.tck
                             leftSpeed := l.spd, rightSpeed := r.spd }] } ∧
      OdoFollowsRules .mod16 s.left l dL s.rx[6] (s.rx[13].toNat + 256 * s.rx[14].toNat) ∧
      OdoFollowsRules .mod16 s.right r dR s.rx[7] (s.rx[15].toNat + 256 * s.rx[16].toNat)

/-- The frame of DEC in the read space (R51, R59): a rejected frame changes what STATUS reads and nothing else; a valid
one changes at most the VF window, STATUS and the odometry registers. -/
def Obligations.DecReadFrame : Prop :=
  ∀ s : State, ∃ t, exec .dec s = .next t ∧
    (frameValid blockParams s.rx = false → ∀ a : Byte, a ≠ 0x3C#8 → readByte a t = readByte a s) ∧
    (frameValid blockParams s.rx = true →
      (∀ i : Fin 20, readByte (BitVec.ofNat 8 (0x28 + i.val)) t = s.rx[i]) ∧
      ∀ a : Byte, (a.toNat < 0x28 ∨ a.toNat = 0x3D ∨ a.toNat = 0x3E ∨ a.toNat = 0x3F ∨ 0x52 ≤ a.toNat) →
        readByte a t = readByte a s)

/-- R246: a second DEC of the same valid frame adds 0 ticks, leaves both wheels as the first stored them and emits a
second, identical event. -/
def Obligations.RepeatedDecAddsNoTicks : Prop :=
  ∀ s t : State, frameValid blockParams s.rx = true → exec .dec s = .next t →
    ∃ e : SinkEvent, t.sink = s.sink ++ [e] ∧ exec .dec t = .next { t with sink := t.sink ++ [e] }

/-- R144 and R145: the wheels and the event of a valid frame depend on no byte of it but the direction byte's high
nibble, the speed bytes and the tick counters; error byte, power bytes, reserved bytes and the low nibble have no
part. -/
def Obligations.OdometryIgnoresTheOtherBytes : Prop :=
  ∀ s s' t t' : State,
    frameValid blockParams s.rx = true → frameValid blockParams s'.rx = true →
    s.left = s'.left → s.right = s'.right → s.sink = s'.sink →
    s.rx[5] &&& 0xF0#8 = s'.rx[5] &&& 0xF0#8 → s.rx[6] = s'.rx[6] → s.rx[7] = s'.rx[7] →
    s.rx[13] = s'.rx[13] → s.rx[14] = s'.rx[14] → s.rx[15] = s'.rx[15] → s.rx[16] = s'.rx[16] →
    exec .dec s = .next t → exec .dec s' = .next t' →
    t.left = t'.left ∧ t.right = t'.right ∧ t.sink = t'.sink ∧ t.fstat = .valid ∧ t'.fstat = .valid

/-- R169: each wheel's new record depends only on its own old record and its own lane, speed byte and counter of the
frame, nothing of the other wheel's. -/
def Obligations.WheelsAreIndependent : Prop :=
  ∀ s s' t t' : State,
    frameValid blockParams s.rx = true → frameValid blockParams s'.rx = true →
    exec .dec s = .next t → exec .dec s' = .next t' →
    (s.left = s'.left → s.rx[5] &&& 0xC0#8 = s'.rx[5] &&& 0xC0#8 → s.rx[6] = s'.rx[6] →
      s.rx[13] = s'.rx[13] → s.rx[14] = s'.rx[14] → t.left = t'.left) ∧
    (s.right = s'.right → s.rx[5] &&& 0x30#8 = s'.rx[5] &&& 0x30#8 → s.rx[7] = s'.rx[7] →
      s.rx[15] = s'.rx[15] → s.rx[16] = s'.rx[16] → t.right = t'.right)

/-- R243, point 3: a DEC before RX was written sees the reset zeros and reports PREAMBLE_MISMATCH, changing nothing
else. -/
def Obligations.DecAtResetReportsPreambleMismatch : Prop :=
  exec .dec State.reset = .next { State.reset with fstat := .preambleMismatch }

/-! ### Odometry, for every block -/

/-- R160 and R161: the four lane codes, and the mask form for every direction byte. -/
def Obligations.LanesDecodeByTheirMasks : Prop :=
  dirDecode 0b11#2 = 1 ∧ dirDecode 0b10#2 = -1 ∧ dirDecode 0b00#2 = 0 ∧ dirDecode 0b01#2 = 0 ∧
  ∀ db : Byte,
    dirDecode (laneL db) =
      (if db &&& 0xC0#8 = 0xC0#8 then 1 else if db &&& 0xC0#8 = 0x80#8 then -1 else 0) ∧
    dirDecode (laneR db) =
      (if db &&& 0x30#8 = 0x30#8 then 1 else if db &&& 0x30#8 = 0x20#8 then -1 else 0)

/-- R56: a tick counter's value in both byte orders, the order of each wheel's counter being TICK_LE, which is true by
default (D8). -/
def Obligations.TickCounterByteOrder : Prop :=
  (∀ b0 b1 : Byte, (raw16 true b0 b1).toNat = 256 * b1.toNat + b0.toNat ∧
    (raw16 false b0 b1).toNat = 256 * b0.toNat + b1.toNat) ∧
  (∀ (p : Params) (f : TelemetryFrame), frameRawL p f = raw16 p.tickLE f[13] f[14] ∧
    frameRawR p f = raw16 p.tickLE f[15] f[16]) ∧
  blockParams.tickLE = true

/-- R162: the stored speed is exactly direction times speed byte, within −255 and 255, and 0 when the direction is 0. -/
def Obligations.SignedSpeedIsExact : Prop :=
  ∀ (p : Params) (w : Wheel) (d : Int) (s : Byte) (raw : BitVec 16), d = -1 ∨ d = 0 ∨ d = 1 →
    (odoUpdate p w d s raw).spd.toInt = d * (s.toNat : Int) ∧
    -255 ≤ (odoUpdate p w d s raw).spd.toInt ∧ (odoUpdate p w d s raw).spd.toInt ≤ 255 ∧
    (d = 0 → (odoUpdate p w d s raw).spd = 0#16)

/-- R163: the baseline of the delta is 0 in exactly the three conditions and the stored raw reading otherwise, and the
stored reading is the new one either way. -/
def Obligations.BaselineResetsInExactlyThreeCases : Prop :=
  ∀ (p : Params) (w : Wheel) (d : Int) (s : Byte) (raw : BitVec 16), d = -1 ∨ d = 0 ∨ d = 1 →
    (d = 0 ∨ d ≠ w.dir.toInt ∨ (w.spd.toInt = 0 ∧ d * (s.toNat : Int) ≠ 0) →
      (odoUpdate p w d s raw).tck = w.tck + BitVec.ofInt 32 (d * (raw.toNat : Int))) ∧
    (¬ (d = 0 ∨ d ≠ w.dir.toInt ∨ (w.spd.toInt = 0 ∧ d * (s.toNat : Int) ≠ 0)) →
      (odoUpdate p w d s raw).tck =
        w.tck + BitVec.ofInt 32 (d * tickDelta p.deltaMode raw (w.raw.toNat : Int))) ∧
    (odoUpdate p w d s raw).raw = raw

/-- R164: the delta in both modes, its range, and that the modes agree when the reading is at least the base; the
default is MOD16 (D10). -/
def Obligations.TickDeltaInBothModes : Prop :=
  (∀ (raw base : BitVec 16),
    tickDelta .mod16 raw base.toNat = ((raw.toNat : Int) - base.toNat) % 2 ^ 16 ∧
    tickDelta .int raw base.toNat = (raw.toNat : Int) - base.toNat ∧
    0 ≤ tickDelta .mod16 raw base.toNat ∧ tickDelta .mod16 raw base.toNat ≤ 65535 ∧
    -65535 ≤ tickDelta .int raw base.toNat ∧ tickDelta .int raw base.toNat ≤ 65535 ∧
    (base.toNat ≤ raw.toNat → tickDelta .mod16 raw base.toNat = tickDelta .int raw base.toNat)) ∧
  blockParams.deltaMode = .mod16

/-- R167: OdoUpdate follows the rules of the registers read as numbers, in both modes. -/
def Obligations.OdoUpdateFollowsTheRules : Prop :=
  ∀ (p : Params) (w : Wheel) (d : Int) (s : Byte) (raw : BitVec 16), d = -1 ∨ d = 0 ∨ d = 1 →
    OdoFollowsRules p.deltaMode w (odoUpdate p w d s raw) d s raw.toNat

/-! ### The read space -/

/-- R28: STATUS holds FSTAT in bits 1..0, TXV in bit 2, PERR in bit 3, ILL in bit 4, and 0 above. -/
def Obligations.StatusByteLayout : Prop :=
  ∀ s : State, (readByte 0x3C#8 s).toNat =
    16 * s.ill.toNat + 8 * s.perr.toNat + 4 * s.txv.toNat +
      (match s.fstat with | .none => 0 | .valid => 1 | .preambleMismatch => 2 | .checksumMismatch => 3)

/-- R51 and R53: every address of the read space. -/
def Obligations.ReadMapIsAsTabulated : Prop :=
  ∀ s : State,
    (∀ i : Fin 12, readByte (BitVec.ofNat 8 i.val) s = s.tx[i]) ∧
    (∀ i : Fin 20, readByte (BitVec.ofNat 8 (0x10 + i.val)) s = s.rx[i]) ∧
    (∀ i : Fin 20, readByte (BitVec.ofNat 8 (0x28 + i.val)) s = s.vf[i]) ∧
    readByte 0x3C#8 s = statusByte s ∧ readByte 0x3D#8 s = s.acc ^^^ Config.chkXorout ∧
    readByte 0x40#8 s = s.left.dir ∧ readByte 0x41#8 s = s.right.dir ∧
    readByte 0x43#8 s ++ readByte 0x42#8 s = s.left.spd ∧ readByte 0x45#8 s ++ readByte 0x44#8 s = s.right.spd ∧
    readByte 0x47#8 s ++ readByte 0x46#8 s = s.left.raw ∧ readByte 0x49#8 s ++ readByte 0x48#8 s = s.right.raw ∧
    readByte 0x4D#8 s ++ readByte 0x4C#8 s ++ readByte 0x4B#8 s ++ readByte 0x4A#8 s = s.left.tck ∧
    readByte 0x51#8 s ++ readByte 0x50#8 s ++ readByte 0x4F#8 s ++ readByte 0x4E#8 s = s.right.tck ∧
    ∀ a : Byte, (0x0C ≤ a.toNat ∧ a.toNat ≤ 0x0F) ∨ (0x24 ≤ a.toNat ∧ a.toNat ≤ 0x27) ∨
      (0x3E ≤ a.toNat ∧ a.toNat ≤ 0x3F) ∨ 0x52 ≤ a.toNat → readByte a s = 0x00#8

/-! ### Rules about the whole machine -/

/-- R20 and R59: no command writes an element it is not listed for: VF, FSTAT, PERR, the wheels and SINK only DEC, TX
and TXV only ENC, RX only RXWR, ACC only the engine's commands, ILL no well-formed command. -/
def Obligations.EachElementHasItsWriter : Prop :=
  ∀ (i : Instr) (s t : State), exec i s = .next t →
    (i ≠ .dec → t.vf = s.vf ∧ t.fstat = s.fstat ∧ t.perr = s.perr ∧ t.left = s.left ∧ t.right = s.right ∧
      t.sink = s.sink) ∧
    ((∀ ls rs ld rd, i ≠ .enc ls rs ld rd) → t.tx = s.tx ∧ t.txv = s.txv) ∧
    ((∀ idx b, i ≠ .rxwr idx b) → t.rx = s.rx) ∧
    (i ≠ .crcclr → (∀ b, i ≠ .crcfeed b) → t.acc = s.acc) ∧
    (i.wf = true → t.ill = s.ill) ∧ t.port = s.port ∧ t.reads = s.reads

/-- R26: ILL is set by every ill-formed command, cleared by reset alone and changed by nothing else. -/
def Obligations.IllIsStickyUntilReset : Prop :=
  ∀ (s t : State) (a : HostAction) (rest : List HostAction), s.port = a :: rest → step s = .next t →
    (a = .reset → t.ill = false) ∧
    (a ≠ .reset → (t.ill = true ↔ s.ill = true ∨ isIllFormed a = true))

/-- R25: TXV is set by ENC and never cleared except by reset. -/
def Obligations.TxvIsStickyUntilReset : Prop :=
  ∀ (s t : State) (a : HostAction) (rest : List HostAction), s.port = a :: rest → step s = .next t →
    (a = .reset → t.txv = false) ∧
    (a ≠ .reset → (t.txv = true ↔ s.txv = true ∨ ∃ ls rs ld rd, commandOf a = some (.enc ls rs ld rd)))

/-- R35, R168 and R241: outside a reset, one step leaves SINK and both wheels as they are, or it is a DEC of a valid
frame, which appends exactly one event, of the values just stored. -/
def Obligations.OnlyAValidDecMovesOdometryAndSink : Prop :=
  ∀ (s t : State) (a : HostAction) (rest : List HostAction),
    s.port = a :: rest → a ≠ .reset → step s = .next t →
    (commandOf a = some .dec ∧ frameValid blockParams s.rx = true →
      t.sink = s.sink ++ [{ leftDir := t.left.dir, rightDir := t.right.dir, leftTicks := t.left.tck
                            rightTicks := t.right.tck, leftSpeed := t.left.spd, rightSpeed := t.right.spd }]) ∧
    (¬ (commandOf a = some .dec ∧ frameValid blockParams s.rx = true) →
      t.sink = s.sink ∧ t.left = s.left ∧ t.right = s.right ∧ t.vf = s.vf ∧ t.perr = s.perr)

/-- R26 and R221: a run of actions without a reset ends with no fault recorded exactly when none was recorded at its
start and no action of it was an ill-formed command. -/
def Obligations.CleanRunHadNoIllFormedCommand : Prop :=
  ∀ (acts : List HostAction) (s : State), (∀ a ∈ acts, a ≠ .reset) →
    ∃ t, Sys2Proof.core.run acts.length { s with port := acts } = .next t ∧
      (NoFaultRecorded t ↔ NoFaultRecorded s ∧ ∀ a ∈ acts, isIllFormed a = false)

/-- The invariant holds at reset, of the modelled block and of every block (R20, R240, R7). -/
def Obligations.RegisterInvAtReset : Prop :=
  Inv blockParams State.reset ∧ ∀ p : Params, Inv p (State.resetWith p)

/-- Every step keeps the invariant, of the modelled block and of every block (R7): TX is blank or a well-formed command frame by TXV; both wheels and PERR show the
frame in VF; VF and the totals are blank or VF is valid and the last event carries the stored records (R23, R25, R27,
R30 to R35, R122, R168). -/
def Obligations.EveryStepKeepsTheRegisterInv : Prop :=
  (∀ s t : State, Inv blockParams s → step s = .next t → Inv blockParams t) ∧
  ∀ (p : Params) (s t : State), Inv p s → stepWith p s = .next t → Inv p t

/-! ### Notation -/

/-- R84: the pseudo-instructions are their expansions. -/
def Obligations.PseudoInstructionsExpand : Prop :=
  pseudoStop.map encode = [0x00000001#32] ∧
  (∀ s : Byte, pseudoRecover s = [.enc s s false false]) ∧
  (∀ bytes : TelemetryFrame, pseudoRecv bytes = pseudoRxload bytes ++ [.dec]) ∧
  (∀ bs : List Byte, pseudoCrc bs = .crcclr :: bs.map .crcfeed) ∧
  ∀ bytes : TelemetryFrame, (pseudoRxload bytes).length = 20 ∧
    ∀ i : Fin 20, (pseudoRxload bytes)[i.val]? = some (.rxwr (BitVec.ofNat 5 i.val) bytes[i])

/-- R84 and R191: RXLOAD leaves exactly its 20 bytes in RX, whatever RX held, and changes nothing else; RECV is then a
DEC of those bytes. -/
def Obligations.RxloadFillsRx : Prop :=
  ∀ (bytes : TelemetryFrame) (s : State), execAll (pseudoRxload bytes) s = .next { s with rx := bytes } ∧
    execAll (pseudoRecv bytes) s = exec .dec { s with rx := bytes }

/-- R83 and R84: an operand outside its range is refused and never truncated, in every place that takes one: a byte is
0 to 255, an index 0 to 19, a direction 0, 1, FWD or BWD, and RXLOAD and RECV take exactly 20 bytes. -/
def Obligations.AssemblerNeverTruncates : Prop :=
  (∀ n : Nat, assemble .crcfeed [.number n] = if n < 256 then some [.crcfeed (BitVec.ofNat 8 n)] else none) ∧
  (∀ n : Nat, assemble .recover [.number n] =
    if n < 256 then some [.enc (BitVec.ofNat 8 n) (BitVec.ofNat 8 n) false false] else none) ∧
  (∀ m n : Nat, assemble .rxwr [.number m, .number n] =
    if m < 20 ∧ n < 256 then some [.rxwr (BitVec.ofNat 5 m) (BitVec.ofNat 8 n)] else none) ∧
  (∀ m n l r : Nat, assemble .enc [.number m, .number n, .number l, .number r] =
    if m < 256 ∧ n < 256 ∧ l < 2 ∧ r < 2 then
      some [.enc (BitVec.ofNat 8 m) (BitVec.ofNat 8 n) (decide (l = 1)) (decide (r = 1))]
    else none) ∧
  (∀ (m n k : Nat) (x y : AsmOperand × Bool), x ∈ [(.fwd, true), (.bwd, false)] → y ∈ [(.fwd, true), (.bwd, false)] →
    assemble .enc [.number m, .number n, x.1, y.1] =
      (if m < 256 ∧ n < 256 then some [.enc (BitVec.ofNat 8 m) (BitVec.ofNat 8 n) x.2 y.2] else none) ∧
    assemble .enc [.number m, .number n, .number k, y.1] =
      (if m < 256 ∧ n < 256 ∧ k < 2 then some [.enc (BitVec.ofNat 8 m) (BitVec.ofNat 8 n) (decide (k = 1)) y.2]
        else none) ∧
    assemble .enc [.number m, .number n, x.1, .number k] =
      (if m < 256 ∧ n < 256 ∧ k < 2 then some [.enc (BitVec.ofNat 8 m) (BitVec.ofNat 8 n) x.2 (decide (k = 1))]
        else none)) ∧
  (∀ ns : List Nat, assemble .crc (ns.map .number) =
    if ∀ n ∈ ns, n < 256 then some (.crcclr :: ns.map fun n => .crcfeed (BitVec.ofNat 8 n)) else none) ∧
  (∀ ns : Vector Nat 20,
    assemble .rxload (ns.toList.map .number) =
      (if ∀ n ∈ ns.toList, n < 256 then some (pseudoRxload (ns.map (BitVec.ofNat 8))) else none) ∧
    assemble .recv (ns.toList.map .number) =
      (if ∀ n ∈ ns.toList, n < 256 then some (pseudoRxload (ns.map (BitVec.ofNat 8)) ++ [.dec]) else none)) ∧
  ∀ ns : List Nat, ns.length ≠ 20 →
    assemble .rxload (ns.map .number) = none ∧ assemble .recv (ns.map .number) = none

/-! ### Every block (R7) -/

/-- R7 and log entry 8: the modelled block is the parametric machine at its own parameters, in every function that
depends on one. -/
def Obligations.TheBlockIsTheMachineAtItsParameters : Prop :=
  (∀ (i : Instr) (s : State), exec i s = execWith blockParams i s) ∧
  (∀ s : State, step s = stepWith blockParams s) ∧ State.reset = State.resetWith blockParams ∧
  (∀ (a : Byte) (s : State), readByte a s = readWith blockParams a s) ∧
  ∀ (n : Nat) (s : State), Sys2Proof.core.run n s = (coreWith blockParams).run n s

/-- R7 with R5, R6, R52, R192 and R240: a step of every block runs the command the host's next word decodes to, records
an ill-formed word in ILL, reads, and resets every element, with that block's parameters. Three clauses are the model's:
the bytes read are kept in `reads` (DESIGN CHOICE, log entry 3); a reset keeps the waiting actions and the bytes already
read (an inference from R240, log entry 12); with no action waiting the state stays (an inference from R223 and R242, log
entry 2). -/
def Obligations.EveryBlockPerformsTheNextAction : Prop :=
  ∀ (p : Params) (s : State) (rest : List HostAction),
    (∀ (w : Word) (i : Instr), s.port = .command w :: rest → decode w = .instr i →
      stepWith p s = execWith p i { s with port := rest }) ∧
    (∀ (w : Word) (why : Illegal), s.port = .command w :: rest → decode w = .illegal why →
      stepWith p s = .next { s with port := rest, ill := true }) ∧
    (∀ a : Byte, s.port = .read a :: rest →
      stepWith p s = .next { s with port := rest, reads := s.reads ++ [readWith p a s] }) ∧
    (s.port = .reset :: rest →
      stepWith p s = .next { State.resetWith p with port := rest, reads := s.reads }) ∧
    (s.port = [] → stepWith p s = .next s)

/-- R7 with R100 to R105 and R240: every block uses its own CHK in the engine, in CRCOUT, in the generator and at
reset; NOP and RXWR use no parameter. -/
def Obligations.EveryBlockUsesItsOwnChecksum : Prop :=
  ∀ (p : Params) (s : State),
    execWith p .nop s = .next s ∧
    execWith p .crcclr s = .next { s with acc := p.chkInit } ∧
    (∀ b : Byte, execWith p (.crcfeed b) s = .next { s with acc := p.chkStep s.acc b }) ∧
    (∀ (idx : BitVec 5) (b : Byte), execWith p (.rxwr idx b) s = exec (.rxwr idx b) s) ∧
    (∀ (ls rs : Byte) (ld rd : Bool),
      let dir : Byte := (if ld then 0xC0#8 else 0x80#8) ||| (if rd then 0x30#8 else 0x20#8)
      let body : List Byte := [0x55#8, 0xAA#8, 0x08#8, 0x10#8, 0x80#8, dir, ls, rs, 0x00#8, 0x00#8, 0x00#8]
      execWith p (.enc ls rs ld rd) s =
        .next { s with
          tx := #v[0x55#8, 0xAA#8, 0x08#8, 0x10#8, 0x80#8, dir, ls, rs, 0x00#8, 0x00#8, 0x00#8,
            body.foldl p.chkStep p.chkInit ^^^ p.chkXorout]
          txv := true }) ∧
    readWith p 0x3D#8 s = s.acc ^^^ p.chkXorout ∧
    (State.resetWith p).acc = p.chkInit ∧ readWith p 0x3D#8 (State.resetWith p) = p.chkInit ^^^ p.chkXorout

/-- R7 with R142, R106, R56 and R164: DEC of every block checks the frame with its own CHK, and of a valid frame reads
the counters in its own TICK_LE order and forms the deltas in its own DELTA_MODE. -/
def Obligations.EveryBlockDecodesByItsParameters : Prop :=
  ∀ (p : Params) (s : State),
    let preambleOk : Prop :=
      s.rx[0] = 0x55#8 ∧ s.rx[1] = 0xAA#8 ∧ s.rx[2] = 0x10#8 ∧ s.rx[3] = 0x01#8 ∧ s.rx[4] = 0xE0#8
    let checksumOk : Prop := (s.rx.toList.take 19).foldl p.chkStep p.chkInit ^^^ p.chkXorout = s.rx[19]
    let dL : Int := if s.rx[5] &&& 0xC0#8 = 0xC0#8 then 1 else if s.rx[5] &&& 0xC0#8 = 0x80#8 then -1 else 0
    let dR : Int := if s.rx[5] &&& 0x30#8 = 0x30#8 then 1 else if s.rx[5] &&& 0x30#8 = 0x20#8 then -1 else 0
    let counter (b0 b1 : Byte) : Nat :=
      if p.tickLE then b0.toNat + 256 * b1.toNat else 256 * b0.toNat + b1.toNat
    (¬ preambleOk → execWith p .dec s = .next { s with fstat := .preambleMismatch }) ∧
    (preambleOk → ¬ checksumOk → execWith p .dec s = .next { s with fstat := .checksumMismatch }) ∧
    (preambleOk → checksumOk → ∃ l r : Wheel,
      execWith p .dec s = .next { s with
        vf := s.rx, fstat := .valid, perr := decide (s.rx[12] ≠ 0#8), left := l, right := r
        sink := s.sink ++ [{ leftDir := l.dir, rightDir := r.dir, leftTicks := l.tck, rightTicks := r.tck
                             leftSpeed := l.spd, rightSpeed := r.spd }] } ∧
      OdoFollowsRules p.deltaMode s.left l dL s.rx[6] (counter s.rx[13] s.rx[14]) ∧
      OdoFollowsRules p.deltaMode s.right r dR s.rx[7] (counter s.rx[15] s.rx[16]))
end

