-- ==== Sys2Proof/Laws/Assembler.lean ====
section
/-! SUPPORT. What the operand readers of the assembler answer on numbers. -/

namespace Sys2Proof.Machine

/-- Byte operands written as numbers are all in range and read unchanged, or refused together. -/
theorem asmBytes_numbers (ns : List Nat) :
    asmBytes (ns.map .number) = if ∀ n ∈ ns, n < 256 then some (ns.map (BitVec.ofNat 8)) else none := by
  induction ns with
  | nil => rfl
  | cons n ns ih =>
    simp only [List.map_cons, asmBytes, ih, asmByte, List.forall_mem_cons]
    by_cases hn : n < 256
    · by_cases hns : ∀ m ∈ ns, m < 256
      · rw [if_pos hn, if_pos hns, if_pos (And.intro hn hns)]
        rfl
      · have hall : ¬ (n < 256 ∧ ∀ m ∈ ns, m < 256) := fun h => hns h.2
        rw [if_pos hn, if_neg hns, if_neg hall]
        rfl
    · have hall : ¬ (n < 256 ∧ ∀ m ∈ ns, m < 256) := fun h => hn h.1
      rw [if_neg hn, if_neg hall]
      rfl

/-- A direction written as a number is 0 or 1, or refused. -/
theorem asmDirection_number (n : Nat) :
    asmDirection (.number n) = if n < 2 then some (decide (n = 1)) else none := by
  match n with
  | 0 => rfl
  | 1 => rfl
  | n + 2 => simp [asmDirection]

end Sys2Proof.Machine
end

