-- ==== Sys2Proof/Laws/Odometry.lean ====
section
/-! SUPPORT. Facts about directions and their storing that every odometry proof needs. -/

namespace Sys2Proof.Machine

/-- A decoded direction is −1, 0 or +1 (spec/00_scope.md R12). -/
theorem dirDecode_cases (c : BitVec 2) : dirDecode c = -1 ∨ dirDecode c = 0 ∨ dirDecode c = 1 := by
  unfold dirDecode
  split
  · simp
  · split <;> simp

/-- A direction survives storing as an i8. -/
theorem storedDir_toInt {d : Int} (h : d = -1 ∨ d = 0 ∨ d = 1) : (BitVec.ofInt 8 d).toInt = d := by
  rcases h with rfl | rfl | rfl <;> rfl

/-- A signed speed lies within −255 and 255. -/
theorem signedSpeed_bounds {d : Int} (h : d = -1 ∨ d = 0 ∨ d = 1) (s : Byte) :
    -255 ≤ signedSpeed d s ∧ signedSpeed d s ≤ 255 := by
  have := s.isLt
  unfold signedSpeed
  rcases h with rfl | rfl | rfl <;> omega

/-- What storing an integer into a total leaves there, read as a number. -/
theorem storedTotal_toNat (x : Int) : ((BitVec.ofInt 32 x).toNat : Int) = x % 2 ^ 32 := by
  simp [BitVec.toNat_ofInt]
  omega

/-- The baseline is 0 where the policy resets it. -/
theorem baseline_of_reset {w : Wheel} {d v : Int} (h : resetBase w d v = true) : baseline w d v = 0 := by
  simp [baseline, h]

/-- The baseline is the stored reading where the policy does not reset it. -/
theorem baseline_of_keep {w : Wheel} {d v : Int} (h : resetBase w d v = false) :
    baseline w d v = (w.raw.toNat : Int) := by
  simp [baseline, h]

/-- The reset policy as a proposition. -/
theorem resetBase_iff (w : Wheel) (d v : Int) :
    resetBase w d v = true ↔ d = 0 ∨ d ≠ w.dir.toInt ∨ (w.spd.toInt = 0 ∧ v ≠ 0) := by
  simp [resetBase, or_assoc]

end Sys2Proof.Machine
end

