-- ==== Sys2Proof/Laws/State.lean ====
section
/-! SUPPORT. For each shared write of the state, what each field holds after it: later proofs rewrite with these and
unfold no update. -/

namespace Sys2Proof.Machine

variable (s : State)

@[simp] theorem pushCommand_tx (w : Word) : (pushCommand w s).tx = s.tx := rfl
@[simp] theorem pushCommand_rx (w : Word) : (pushCommand w s).rx = s.rx := rfl
@[simp] theorem pushCommand_vf (w : Word) : (pushCommand w s).vf = s.vf := rfl
@[simp] theorem pushCommand_fstat (w : Word) : (pushCommand w s).fstat = s.fstat := rfl
@[simp] theorem pushCommand_txv (w : Word) : (pushCommand w s).txv = s.txv := rfl
@[simp] theorem pushCommand_perr (w : Word) : (pushCommand w s).perr = s.perr := rfl
@[simp] theorem pushCommand_ill (w : Word) : (pushCommand w s).ill = s.ill := rfl
@[simp] theorem pushCommand_acc (w : Word) : (pushCommand w s).acc = s.acc := rfl
@[simp] theorem pushCommand_left (w : Word) : (pushCommand w s).left = s.left := rfl
@[simp] theorem pushCommand_right (w : Word) : (pushCommand w s).right = s.right := rfl
@[simp] theorem pushCommand_sink (w : Word) : (pushCommand w s).sink = s.sink := rfl
@[simp] theorem pushCommand_port (w : Word) : (pushCommand w s).port = .command w :: s.port := rfl
@[simp] theorem pushCommand_reads (w : Word) : (pushCommand w s).reads = s.reads := rfl

@[simp] theorem recordIll_tx : (recordIll s).tx = s.tx := rfl
@[simp] theorem recordIll_rx : (recordIll s).rx = s.rx := rfl
@[simp] theorem recordIll_vf : (recordIll s).vf = s.vf := rfl
@[simp] theorem recordIll_fstat : (recordIll s).fstat = s.fstat := rfl
@[simp] theorem recordIll_txv : (recordIll s).txv = s.txv := rfl
@[simp] theorem recordIll_perr : (recordIll s).perr = s.perr := rfl
@[simp] theorem recordIll_ill : (recordIll s).ill = true := rfl
@[simp] theorem recordIll_acc : (recordIll s).acc = s.acc := rfl
@[simp] theorem recordIll_left : (recordIll s).left = s.left := rfl
@[simp] theorem recordIll_right : (recordIll s).right = s.right := rfl
@[simp] theorem recordIll_sink : (recordIll s).sink = s.sink := rfl
@[simp] theorem recordIll_port : (recordIll s).port = s.port := rfl
@[simp] theorem recordIll_reads : (recordIll s).reads = s.reads := rfl

@[simp] theorem loadTx_tx (f : CommandFrame) : (loadTx f s).tx = f := rfl
@[simp] theorem loadTx_rx (f : CommandFrame) : (loadTx f s).rx = s.rx := rfl
@[simp] theorem loadTx_vf (f : CommandFrame) : (loadTx f s).vf = s.vf := rfl
@[simp] theorem loadTx_fstat (f : CommandFrame) : (loadTx f s).fstat = s.fstat := rfl
@[simp] theorem loadTx_txv (f : CommandFrame) : (loadTx f s).txv = true := rfl
@[simp] theorem loadTx_perr (f : CommandFrame) : (loadTx f s).perr = s.perr := rfl
@[simp] theorem loadTx_ill (f : CommandFrame) : (loadTx f s).ill = s.ill := rfl
@[simp] theorem loadTx_acc (f : CommandFrame) : (loadTx f s).acc = s.acc := rfl
@[simp] theorem loadTx_left (f : CommandFrame) : (loadTx f s).left = s.left := rfl
@[simp] theorem loadTx_right (f : CommandFrame) : (loadTx f s).right = s.right := rfl
@[simp] theorem loadTx_sink (f : CommandFrame) : (loadTx f s).sink = s.sink := rfl
@[simp] theorem loadTx_port (f : CommandFrame) : (loadTx f s).port = s.port := rfl
@[simp] theorem loadTx_reads (f : CommandFrame) : (loadTx f s).reads = s.reads := rfl

@[simp] theorem writeRx_tx (i : Nat) (b : Byte) : (writeRx i b s).tx = s.tx := rfl
@[simp] theorem writeRx_rx (i : Nat) (b : Byte) : (writeRx i b s).rx = s.rx.setIfInBounds i b := rfl
@[simp] theorem writeRx_vf (i : Nat) (b : Byte) : (writeRx i b s).vf = s.vf := rfl
@[simp] theorem writeRx_fstat (i : Nat) (b : Byte) : (writeRx i b s).fstat = s.fstat := rfl
@[simp] theorem writeRx_txv (i : Nat) (b : Byte) : (writeRx i b s).txv = s.txv := rfl
@[simp] theorem writeRx_perr (i : Nat) (b : Byte) : (writeRx i b s).perr = s.perr := rfl
@[simp] theorem writeRx_ill (i : Nat) (b : Byte) : (writeRx i b s).ill = s.ill := rfl
@[simp] theorem writeRx_acc (i : Nat) (b : Byte) : (writeRx i b s).acc = s.acc := rfl
@[simp] theorem writeRx_left (i : Nat) (b : Byte) : (writeRx i b s).left = s.left := rfl
@[simp] theorem writeRx_right (i : Nat) (b : Byte) : (writeRx i b s).right = s.right := rfl
@[simp] theorem writeRx_sink (i : Nat) (b : Byte) : (writeRx i b s).sink = s.sink := rfl
@[simp] theorem writeRx_port (i : Nat) (b : Byte) : (writeRx i b s).port = s.port := rfl
@[simp] theorem writeRx_reads (i : Nat) (b : Byte) : (writeRx i b s).reads = s.reads := rfl

@[simp] theorem setAcc_tx (a : Byte) : (setAcc a s).tx = s.tx := rfl
@[simp] theorem setAcc_rx (a : Byte) : (setAcc a s).rx = s.rx := rfl
@[simp] theorem setAcc_vf (a : Byte) : (setAcc a s).vf = s.vf := rfl
@[simp] theorem setAcc_fstat (a : Byte) : (setAcc a s).fstat = s.fstat := rfl
@[simp] theorem setAcc_txv (a : Byte) : (setAcc a s).txv = s.txv := rfl
@[simp] theorem setAcc_perr (a : Byte) : (setAcc a s).perr = s.perr := rfl
@[simp] theorem setAcc_ill (a : Byte) : (setAcc a s).ill = s.ill := rfl
@[simp] theorem setAcc_acc (a : Byte) : (setAcc a s).acc = a := rfl
@[simp] theorem setAcc_left (a : Byte) : (setAcc a s).left = s.left := rfl
@[simp] theorem setAcc_right (a : Byte) : (setAcc a s).right = s.right := rfl
@[simp] theorem setAcc_sink (a : Byte) : (setAcc a s).sink = s.sink := rfl
@[simp] theorem setAcc_port (a : Byte) : (setAcc a s).port = s.port := rfl
@[simp] theorem setAcc_reads (a : Byte) : (setAcc a s).reads = s.reads := rfl

@[simp] theorem setFstat_tx (r : FrameStatus) : (setFstat r s).tx = s.tx := rfl
@[simp] theorem setFstat_rx (r : FrameStatus) : (setFstat r s).rx = s.rx := rfl
@[simp] theorem setFstat_vf (r : FrameStatus) : (setFstat r s).vf = s.vf := rfl
@[simp] theorem setFstat_fstat (r : FrameStatus) : (setFstat r s).fstat = r := rfl
@[simp] theorem setFstat_txv (r : FrameStatus) : (setFstat r s).txv = s.txv := rfl
@[simp] theorem setFstat_perr (r : FrameStatus) : (setFstat r s).perr = s.perr := rfl
@[simp] theorem setFstat_ill (r : FrameStatus) : (setFstat r s).ill = s.ill := rfl
@[simp] theorem setFstat_acc (r : FrameStatus) : (setFstat r s).acc = s.acc := rfl
@[simp] theorem setFstat_left (r : FrameStatus) : (setFstat r s).left = s.left := rfl
@[simp] theorem setFstat_right (r : FrameStatus) : (setFstat r s).right = s.right := rfl
@[simp] theorem setFstat_sink (r : FrameStatus) : (setFstat r s).sink = s.sink := rfl
@[simp] theorem setFstat_port (r : FrameStatus) : (setFstat r s).port = s.port := rfl
@[simp] theorem setFstat_reads (r : FrameStatus) : (setFstat r s).reads = s.reads := rfl

@[simp] theorem latchFrame_tx (f : TelemetryFrame) (e : Bool) : (latchFrame f e s).tx = s.tx := rfl
@[simp] theorem latchFrame_rx (f : TelemetryFrame) (e : Bool) : (latchFrame f e s).rx = s.rx := rfl
@[simp] theorem latchFrame_vf (f : TelemetryFrame) (e : Bool) : (latchFrame f e s).vf = f := rfl
@[simp] theorem latchFrame_fstat (f : TelemetryFrame) (e : Bool) : (latchFrame f e s).fstat = s.fstat := rfl
@[simp] theorem latchFrame_txv (f : TelemetryFrame) (e : Bool) : (latchFrame f e s).txv = s.txv := rfl
@[simp] theorem latchFrame_perr (f : TelemetryFrame) (e : Bool) : (latchFrame f e s).perr = e := rfl
@[simp] theorem latchFrame_ill (f : TelemetryFrame) (e : Bool) : (latchFrame f e s).ill = s.ill := rfl
@[simp] theorem latchFrame_acc (f : TelemetryFrame) (e : Bool) : (latchFrame f e s).acc = s.acc := rfl
@[simp] theorem latchFrame_left (f : TelemetryFrame) (e : Bool) : (latchFrame f e s).left = s.left := rfl
@[simp] theorem latchFrame_right (f : TelemetryFrame) (e : Bool) : (latchFrame f e s).right = s.right := rfl
@[simp] theorem latchFrame_sink (f : TelemetryFrame) (e : Bool) : (latchFrame f e s).sink = s.sink := rfl
@[simp] theorem latchFrame_port (f : TelemetryFrame) (e : Bool) : (latchFrame f e s).port = s.port := rfl
@[simp] theorem latchFrame_reads (f : TelemetryFrame) (e : Bool) : (latchFrame f e s).reads = s.reads := rfl

@[simp] theorem setLeft_tx (w : Wheel) : (setLeft w s).tx = s.tx := rfl
@[simp] theorem setLeft_rx (w : Wheel) : (setLeft w s).rx = s.rx := rfl
@[simp] theorem setLeft_vf (w : Wheel) : (setLeft w s).vf = s.vf := rfl
@[simp] theorem setLeft_fstat (w : Wheel) : (setLeft w s).fstat = s.fstat := rfl
@[simp] theorem setLeft_txv (w : Wheel) : (setLeft w s).txv = s.txv := rfl
@[simp] theorem setLeft_perr (w : Wheel) : (setLeft w s).perr = s.perr := rfl
@[simp] theorem setLeft_ill (w : Wheel) : (setLeft w s).ill = s.ill := rfl
@[simp] theorem setLeft_acc (w : Wheel) : (setLeft w s).acc = s.acc := rfl
@[simp] theorem setLeft_left (w : Wheel) : (setLeft w s).left = w := rfl
@[simp] theorem setLeft_right (w : Wheel) : (setLeft w s).right = s.right := rfl
@[simp] theorem setLeft_sink (w : Wheel) : (setLeft w s).sink = s.sink := rfl
@[simp] theorem setLeft_port (w : Wheel) : (setLeft w s).port = s.port := rfl
@[simp] theorem setLeft_reads (w : Wheel) : (setLeft w s).reads = s.reads := rfl

@[simp] theorem setRight_tx (w : Wheel) : (setRight w s).tx = s.tx := rfl
@[simp] theorem setRight_rx (w : Wheel) : (setRight w s).rx = s.rx := rfl
@[simp] theorem setRight_vf (w : Wheel) : (setRight w s).vf = s.vf := rfl
@[simp] theorem setRight_fstat (w : Wheel) : (setRight w s).fstat = s.fstat := rfl
@[simp] theorem setRight_txv (w : Wheel) : (setRight w s).txv = s.txv := rfl
@[simp] theorem setRight_perr (w : Wheel) : (setRight w s).perr = s.perr := rfl
@[simp] theorem setRight_ill (w : Wheel) : (setRight w s).ill = s.ill := rfl
@[simp] theorem setRight_acc (w : Wheel) : (setRight w s).acc = s.acc := rfl
@[simp] theorem setRight_left (w : Wheel) : (setRight w s).left = s.left := rfl
@[simp] theorem setRight_right (w : Wheel) : (setRight w s).right = w := rfl
@[simp] theorem setRight_sink (w : Wheel) : (setRight w s).sink = s.sink := rfl
@[simp] theorem setRight_port (w : Wheel) : (setRight w s).port = s.port := rfl
@[simp] theorem setRight_reads (w : Wheel) : (setRight w s).reads = s.reads := rfl

@[simp] theorem emitSink_tx (e : SinkEvent) : (emitSink e s).tx = s.tx := rfl
@[simp] theorem emitSink_rx (e : SinkEvent) : (emitSink e s).rx = s.rx := rfl
@[simp] theorem emitSink_vf (e : SinkEvent) : (emitSink e s).vf = s.vf := rfl
@[simp] theorem emitSink_fstat (e : SinkEvent) : (emitSink e s).fstat = s.fstat := rfl
@[simp] theorem emitSink_txv (e : SinkEvent) : (emitSink e s).txv = s.txv := rfl
@[simp] theorem emitSink_perr (e : SinkEvent) : (emitSink e s).perr = s.perr := rfl
@[simp] theorem emitSink_ill (e : SinkEvent) : (emitSink e s).ill = s.ill := rfl
@[simp] theorem emitSink_acc (e : SinkEvent) : (emitSink e s).acc = s.acc := rfl
@[simp] theorem emitSink_left (e : SinkEvent) : (emitSink e s).left = s.left := rfl
@[simp] theorem emitSink_right (e : SinkEvent) : (emitSink e s).right = s.right := rfl
@[simp] theorem emitSink_sink (e : SinkEvent) : (emitSink e s).sink = s.sink ++ [e] := rfl
@[simp] theorem emitSink_port (e : SinkEvent) : (emitSink e s).port = s.port := rfl
@[simp] theorem emitSink_reads (e : SinkEvent) : (emitSink e s).reads = s.reads := rfl

@[simp] theorem recordRead_tx (b : Byte) : (recordRead b s).tx = s.tx := rfl
@[simp] theorem recordRead_rx (b : Byte) : (recordRead b s).rx = s.rx := rfl
@[simp] theorem recordRead_vf (b : Byte) : (recordRead b s).vf = s.vf := rfl
@[simp] theorem recordRead_fstat (b : Byte) : (recordRead b s).fstat = s.fstat := rfl
@[simp] theorem recordRead_txv (b : Byte) : (recordRead b s).txv = s.txv := rfl
@[simp] theorem recordRead_perr (b : Byte) : (recordRead b s).perr = s.perr := rfl
@[simp] theorem recordRead_ill (b : Byte) : (recordRead b s).ill = s.ill := rfl
@[simp] theorem recordRead_acc (b : Byte) : (recordRead b s).acc = s.acc := rfl
@[simp] theorem recordRead_left (b : Byte) : (recordRead b s).left = s.left := rfl
@[simp] theorem recordRead_right (b : Byte) : (recordRead b s).right = s.right := rfl
@[simp] theorem recordRead_sink (b : Byte) : (recordRead b s).sink = s.sink := rfl
@[simp] theorem recordRead_port (b : Byte) : (recordRead b s).port = s.port := rfl
@[simp] theorem recordRead_reads (b : Byte) : (recordRead b s).reads = s.reads ++ [b] := rfl

@[simp] theorem resetEvent_tx (p : Params) : (resetEvent p s).tx = (State.resetWith p).tx := rfl
@[simp] theorem resetEvent_rx (p : Params) : (resetEvent p s).rx = (State.resetWith p).rx := rfl
@[simp] theorem resetEvent_vf (p : Params) : (resetEvent p s).vf = (State.resetWith p).vf := rfl
@[simp] theorem resetEvent_fstat (p : Params) : (resetEvent p s).fstat = (State.resetWith p).fstat := rfl
@[simp] theorem resetEvent_txv (p : Params) : (resetEvent p s).txv = (State.resetWith p).txv := rfl
@[simp] theorem resetEvent_perr (p : Params) : (resetEvent p s).perr = (State.resetWith p).perr := rfl
@[simp] theorem resetEvent_ill (p : Params) : (resetEvent p s).ill = (State.resetWith p).ill := rfl
@[simp] theorem resetEvent_acc (p : Params) : (resetEvent p s).acc = (State.resetWith p).acc := rfl
@[simp] theorem resetEvent_left (p : Params) : (resetEvent p s).left = (State.resetWith p).left := rfl
@[simp] theorem resetEvent_right (p : Params) : (resetEvent p s).right = (State.resetWith p).right := rfl
@[simp] theorem resetEvent_sink (p : Params) : (resetEvent p s).sink = (State.resetWith p).sink := rfl
@[simp] theorem resetEvent_port (p : Params) : (resetEvent p s).port = s.port := rfl
@[simp] theorem resetEvent_reads (p : Params) : (resetEvent p s).reads = s.reads := rfl

@[simp] theorem resetWith_tx (p : Params) : (State.resetWith p).tx = Vector.replicate 12 0x00#8 := rfl
@[simp] theorem resetWith_rx (p : Params) : (State.resetWith p).rx = Vector.replicate 20 0x00#8 := rfl
@[simp] theorem resetWith_vf (p : Params) : (State.resetWith p).vf = Vector.replicate 20 0x00#8 := rfl
@[simp] theorem resetWith_fstat (p : Params) : (State.resetWith p).fstat = .none := rfl
@[simp] theorem resetWith_txv (p : Params) : (State.resetWith p).txv = false := rfl
@[simp] theorem resetWith_perr (p : Params) : (State.resetWith p).perr = false := rfl
@[simp] theorem resetWith_ill (p : Params) : (State.resetWith p).ill = false := rfl
@[simp] theorem resetWith_acc (p : Params) : (State.resetWith p).acc = p.chkInit := rfl
@[simp] theorem resetWith_left (p : Params) : (State.resetWith p).left = Wheel.reset := rfl
@[simp] theorem resetWith_right (p : Params) : (State.resetWith p).right = Wheel.reset := rfl
@[simp] theorem resetWith_sink (p : Params) : (State.resetWith p).sink = [] := rfl
@[simp] theorem resetWith_port (p : Params) : (State.resetWith p).port = [] := rfl
@[simp] theorem resetWith_reads (p : Params) : (State.resetWith p).reads = [] := rfl

end Sys2Proof.Machine
end

