-- ==== Sys2Proof/Laws/Ops.lean ====
section
/-! SUPPORT. One lemma per shared operation that says everything it can do. Provers cite these instead of unfolding
the operation. -/

namespace Sys2Proof.Machine

/-- Fetching takes the head of the port and nothing else. -/
theorem fetch_eq_some {s s' : State} {a : HostAction} :
    fetch s = some (a, s') ↔ ∃ rest, s.port = a :: rest ∧ s' = { s with port := rest } := by
  unfold fetch
  split <;> simp_all [eq_comm]

/-- Fetching finds nothing exactly when the port is empty. -/
theorem fetch_eq_none {s : State} : fetch s = .none ↔ s.port = [] := by
  unfold fetch
  split <;> simp_all

/-- A byte written to RX is the byte read back, and every other byte of RX stays. -/
theorem writeRx_get (s : State) (i : Nat) (b : Byte) (j : Fin 20) :
    (writeRx i b s).rx[j] = if j.val = i then b else s.rx[j] := by
  simp [Vector.getElem_setIfInBounds, eq_comm]

/-- An index outside RX writes nothing. -/
theorem writeRx_outside (s : State) (i : Nat) (b : Byte) (h : 20 ≤ i) : writeRx i b s = s := by
  simp [writeRx, Vector.setIfInBounds_eq_of_size_le h]

/-- Everything acceptFrame does, as one update. -/
theorem acceptFrame_eq (p : Params) (f : TelemetryFrame) (s : State) :
    acceptFrame p f s =
      { s with
        vf := f, fstat := .valid, perr := peerError (frameErr f)
        left := odoLeft p f s.left, right := odoRight p f s.right
        sink := s.sink ++ [sinkEvent (odoLeft p f s.left) (odoRight p f s.right)] } := rfl

/-- The three things DEC can do, each with the condition under which it does it. -/
theorem decodeRx_cases (p : Params) (s : State) :
    (preambleGood s.rx = false ∧ decodeRx p s = setFstat .preambleMismatch s) ∨
    (preambleGood s.rx = true ∧ checksumGood p s.rx = false ∧ decodeRx p s = setFstat .checksumMismatch s) ∨
    (preambleGood s.rx = true ∧ checksumGood p s.rx = true ∧ decodeRx p s = acceptFrame p s.rx s) := by
  unfold decodeRx
  by_cases hp : preambleGood s.rx = true <;> by_cases hc : checksumGood p s.rx = true <;> simp [hp, hc]

/-- A frame is valid when both checks pass. -/
theorem frameValid_iff (p : Params) (f : TelemetryFrame) :
    frameValid p f = true ↔ preambleGood f = true ∧ checksumGood p f = true := by
  simp [frameValid]

/-- The preamble check, byte by byte. -/
theorem preambleGood_iff (f : TelemetryFrame) :
    preambleGood f = true ↔
      f[0] = 0x55#8 ∧ f[1] = 0xAA#8 ∧ f[2] = 0x10#8 ∧ f[3] = 0x01#8 ∧ f[4] = 0xE0#8 := by
  obtain ⟨⟨l⟩, h⟩ := f
  match l, h with
  | [_, _, _, _, _, _, _, _, _, _, _, _, _, _, _, _, _, _, _, _], _ =>
    simp [preambleGood, framePre, preamble, Vector.toList]

/-- DEC never reads or writes the port. -/
theorem decodeRx_withPort (p : Params) (s : State) (q : List HostAction) :
    decodeRx p { s with port := q } = { decodeRx p s with port := q } := by
  unfold decodeRx
  by_cases hp : preambleGood s.rx = true <;> by_cases hc : checksumGood p s.rx = true <;>
    simp [hp, hc, acceptFrame_eq, setFstat]

/-- DEC never reads or writes ACC. -/
theorem decodeRx_withAcc (p : Params) (s : State) (x : Byte) :
    decodeRx p { s with acc := x } = { decodeRx p s with acc := x } := by
  unfold decodeRx
  by_cases hp : preambleGood s.rx = true <;> by_cases hc : checksumGood p s.rx = true <;>
    simp [hp, hc, acceptFrame_eq, setFstat]

end Sys2Proof.Machine
end

