-- ==== Sys2Proof/Laws/PerInstr.lean ====
section
/-! SUPPORT. Per-command facts about encodings: the opcode field of every command's word (spec/30_encoding.md R73 and
R74). -/

namespace Sys2Proof.Laws.EncodedOpcode

/-- The opcode of spec/30_encoding.md R73. -/
def opcode : Instr → Byte
  | .nop => 0x00#8
  | .enc _ _ _ _ => 0x01#8
  | .dec => 0x02#8
  | .crcclr => 0x03#8
  | .crcfeed _ => 0x04#8
  | .rxwr _ _ => 0x05#8

/-- The word of a command carries its opcode in bits 7..0. -/
def Statement (i : Instr) : Prop := opField (encode i) = opcode i

theorem nop : Statement .nop := rfl

theorem enc (ls rs : Byte) (ld rd : Bool) : Statement (.enc ls rs ld rd) := by
  unfold Statement
  ext i hi
  simp only [opField, encode, opcode]
  interval_cases i <;> simp

theorem dec : Statement .dec := rfl

theorem crcclr : Statement .crcclr := rfl

theorem crcfeed (b : Byte) : Statement (.crcfeed b) := by
  unfold Statement
  ext i hi
  simp only [opField, encode, opcode]
  interval_cases i <;> simp

theorem rxwr (idx : BitVec 5) (b : Byte) : Statement (.rxwr idx b) := by
  unfold Statement
  ext i hi
  simp only [opField, encode, opcode]
  interval_cases i <;> simp

end Sys2Proof.Laws.EncodedOpcode
end

