-- ==== Sys2Proof/Laws/ReadPort.lean ====
section
/-! SUPPORT. Looking an address up in the read map, window by window. -/

namespace Sys2Proof.Machine

/-- A window says nothing of an address outside it. -/
theorem windowByte_outside {a : Nat} {win : Window} (h : a < win.base ∨ win.base + win.bytes.length ≤ a) :
    windowByte a win = .none := by
  unfold windowByte
  split
  · rw [List.getElem?_eq_none_iff]
    omega
  · rfl

/-- A window holds a byte for each address inside it. -/
theorem windowByte_inside {a : Nat} {win : Window} (h : win.base ≤ a) (h' : a - win.base < win.bytes.length) :
    windowByte a win = some win.bytes[a - win.base] := by
  simp [windowByte, h, h']

/-- The first window of a map answers, or the rest of the map does. -/
theorem findWindow_cons (win : Window) (wins : List Window) (a : Nat) :
    (win :: wins).findSome? (windowByte a) = (windowByte a win).or (wins.findSome? (windowByte a)) := by
  rw [List.findSome?_cons]
  cases windowByte a win <;> rfl

/-- A 16-bit register has two bytes in the read space, a 32-bit register four. -/
@[simp] theorem leBytes_length {w : Nat} (n : Nat) (v : BitVec w) : (leBytes n v).length = n := by
  simp [leBytes]

/-- The two bytes of a 16-bit register make it up. -/
theorem bytes16 (v : BitVec 16) : v.extractLsb' 8 8 ++ v.extractLsb' 0 8 = v := by
  ext i hi
  simp
  grind

/-- The four bytes of a 32-bit register make it up. -/
theorem bytes32 (v : BitVec 32) :
    v.extractLsb' 24 8 ++ v.extractLsb' 16 8 ++ v.extractLsb' 8 8 ++ v.extractLsb' 0 8 = v := by
  ext i hi
  simp
  grind

end Sys2Proof.Machine
end

