-- ==== Sys2Proof/Laws/Step.lean ====
section
/-! SUPPORT. What one step can do, said once and for every block: it performs the host's next action, and it depends on
no later one. The modelled block is the case blockParams. -/

namespace Sys2Proof.Machine

/-- The modelled block's commands are those of the machine at its parameters. -/
theorem exec_eq_execWith (i : Instr) (s : State) : exec i s = execWith blockParams i s := by
  cases i <;> rfl

/-- The modelled block's step is that of the machine at its parameters. -/
theorem step_eq_stepWith (s : State) : step s = stepWith blockParams s := by
  have h : exec = execWith blockParams := funext fun i => funext fun s => exec_eq_execWith i s
  rw [step, stepWith, h]

/-- The modelled block is the machine at its parameters. -/
theorem core_eq_coreWith : Sys2Proof.core = coreWith blockParams := by
  have h : step = stepWith blockParams := funext step_eq_stepWith
  rw [Sys2Proof.core, coreWith, h]
  rfl

/-- The state after a command, which always has one. -/
def execState (p : Params) (i : Instr) (s : State) : State :=
  match i with
  | .nop => s
  | .enc ls rs ld rd => encodeInto p ls rs ld rd s
  | .dec => decodeRx p s
  | .crcclr => clearAcc p s
  | .crcfeed b => feedAcc p b s
  | .rxwr idx b => if idx.toNat < 20 then writeRx idx.toNat b s else recordIll s

/-- Every command leads to its next state. -/
theorem execWith_eq (p : Params) (i : Instr) (s : State) : execWith p i s = .next (execState p i s) := by
  cases i <;> rfl

/-- Every command of the modelled block leads to its next state. -/
theorem exec_eq (i : Instr) (s : State) : exec i s = .next (execState blockParams i s) := by
  rw [exec_eq_execWith, execWith_eq]

/-- The state after one host action. -/
def perform (p : Params) (a : HostAction) (s : State) : State :=
  match a with
  | .command w =>
    match decode w with
    | .instr i => execState p i s
    | .illegal _ => recordIll s
  | .read a => hostRead p a s
  | .reset => resetEvent p s

/-- Every action leads to its next state. -/
theorem performBy_eq (p : Params) (a : HostAction) (s : State) :
    performBy p (execWith p) a s = .next (perform p a s) := by
  cases a with
  | command w =>
    dsimp only [performBy, perform]
    cases decode w with
    | instr i => exact execWith_eq p i s
    | illegal _ => rfl
  | read _ => rfl
  | reset => rfl

/-- A step with an action waiting performs it. -/
theorem stepWith_cons (p : Params) {s : State} {a : HostAction} {rest : List HostAction} (h : s.port = a :: rest) :
    stepWith p s = .next (perform p a { s with port := rest }) := by
  rw [stepWith, stepBy, fetch_eq_some.2 ⟨rest, h, rfl⟩]
  exact performBy_eq p a _

/-- A step with no action waiting changes nothing. -/
theorem stepWith_nil (p : Params) {s : State} (h : s.port = []) : stepWith p s = .next s := by
  rw [stepWith, stepBy, fetch_eq_none.2 h]
  rfl

/-- A step of the modelled block with an action waiting performs it. -/
theorem step_cons {s : State} {a : HostAction} {rest : List HostAction} (h : s.port = a :: rest) :
    step s = .next (perform blockParams a { s with port := rest }) := by
  rw [step_eq_stepWith, stepWith_cons blockParams h]

/-- A step of the modelled block with no action waiting changes nothing. -/
theorem step_nil {s : State} (h : s.port = []) : step s = .next s := by
  rw [step_eq_stepWith, stepWith_nil blockParams h]

/-- A command reads and writes nothing of the port. -/
theorem execState_withPort (p : Params) (i : Instr) (s : State) (q : List HostAction) :
    execState p i { s with port := q } = { execState p i s with port := q } := by
  cases i with
  | dec => exact decodeRx_withPort p s q
  | rxwr idx b =>
    simp only [execState]
    split <;> rfl
  | nop => rfl
  | enc _ _ _ _ => rfl
  | crcclr => rfl
  | crcfeed _ => rfl

/-- No address of the read space shows the port. -/
theorem readWith_withPort (p : Params) (a : Byte) (s : State) (q : List HostAction) :
    readWith p a { s with port := q } = readWith p a s := rfl

/-- An action reads and writes nothing of the actions behind it. -/
theorem perform_withPort (p : Params) (a : HostAction) (s : State) (q : List HostAction) :
    perform p a { s with port := q } = { perform p a s with port := q } := by
  cases a with
  | command w =>
    dsimp only [perform]
    cases decode w with
    | instr i => exact execState_withPort p i s q
    | illegal _ => rfl
  | read _ => rfl
  | reset => rfl

/-- One step of a run performs the first action; the rest of the run goes on from there. -/
theorem runWith_cons (p : Params) (a : HostAction) (rest : List HostAction) (n : Nat) (s : State) :
    (coreWith p).run (n + 1) { s with port := a :: rest } = (coreWith p).run n { perform p a s with port := rest } := by
  have h : (coreWith p).step { s with port := a :: rest } = .next { perform p a s with port := rest } := by
    rw [← perform_withPort]
    exact stepWith_cons p (s := { s with port := a :: rest }) rfl
  simp only [Host.Core.run, h]

/-- The same of the modelled block. -/
theorem run_cons (a : HostAction) (rest : List HostAction) (n : Nat) (s : State) :
    Sys2Proof.core.run (n + 1) { s with port := a :: rest } =
      Sys2Proof.core.run n { perform blockParams a s with port := rest } := by
  have h : Sys2Proof.core.step { s with port := a :: rest } = .next { perform blockParams a s with port := rest } := by
    rw [← perform_withPort]
    exact step_cons (s := { s with port := a :: rest }) rfl
  simp only [Host.Core.run, h]

end Sys2Proof.Machine
end

