-- ==== Sys2Proof/Tests/Slice0.lean ====
section
/-! SUPPORT. Checks of the model against words and values the spec writes out, the well-formedness smoke test, and for
every statement with hypotheses a concrete state and operands that meet them. -/

namespace Sys2Proof.Tests

open Sys2Proof Sys2Proof.Machine

/-- The state after an outcome, if it is a next state. -/
def nextOf (o : Host.Outcome State Fault Refusal) : Option State :=
  match o with
  | .next t => some t
  | .fault _ => none
  | .refused _ => none

/-- The candidate `SUM8` of spec/93_implementation_defined.md G4, with the decided defaults. -/
def sum8 : Params where
  chkInit := 0x00#8
  chkStep := fun a b => a + b
  chkXorout := 0x00#8
  tickLE := true
  deltaMode := .mod16

/-- One round of the candidate `CRC8_07`. -/
def crcRound (a : Byte) : Byte := if a.msb then (a <<< 1) ^^^ 0x07#8 else a <<< 1

/-- The candidate `CRC8_07` of spec/93_implementation_defined.md G5. -/
def crc8 : Params :=
  { sum8 with chkStep := fun a b => (List.range 8).foldl (fun x _ => crcRound x) (a ^^^ b) }

/-! ### Decoding, from the bit fields of spec/30_encoding.md R71 -/

theorem test_decode_nop : decode (0b000000#6 ++ 0b0#1 ++ 0b0#1 ++ 0b000#3 ++ 0b00000#5 ++ 0x00#8 ++ 0x00#8) =
    .instr .nop := by decide

theorem test_decode_enc : decode (0b000000#6 ++ 0b1#1 ++ 0b0#1 ++ 0b001#3 ++ 0b10010#5 ++ 0b01100100#8 ++ 0b00000001#8) =
    .instr (.enc 100#8 50#8 false true) := by decide

theorem test_decode_dec : decode (0x000000#24 ++ 0b00000010#8) = .instr .dec := by decide

theorem test_decode_crcclr : decode (0x000000#24 ++ 0b00000011#8) = .instr .crcclr := by decide

theorem test_decode_crcfeed : decode (0x0000#16 ++ 0b11111110#8 ++ 0b00000100#8) =
    .instr (.crcfeed 0xFE#8) := by decide

theorem test_decode_rxwr : decode (0x00#8 ++ 0b000#3 ++ 0b10011#5 ++ 0b11101011#8 ++ 0b00000101#8) =
    .instr (.rxwr 19#5 0xEB#8) := by decide

/-- The ill-formed words of spec/95_test_vectors.md V-E, each by name. -/
theorem test_decode_illegal :
    [0x00140005#32, 0x001F0005#32, 0x00200005#32, 0x00000100#32, 0x00000102#32, 0x00000103#32, 0x00010004#32,
      0x04000001#32, 0x00000006#32, 0x000000FF#32].map decode =
    [.illegal (.rxIndex 20#5), .illegal (.rxIndex 31#5), .illegal (.reservedBits 5#8), .illegal (.reservedBits 0#8),
      .illegal (.reservedBits 2#8), .illegal (.reservedBits 3#8), .illegal (.reservedBits 4#8),
      .illegal (.reservedBits 1#8), .illegal (.reservedOpcode 6#8), .illegal (.reservedOpcode 0xFF#8)] := by decide

/-- The words of spec/30_encoding.md R75, encoded. -/
theorem test_encode : [Instr.enc 100#8 50#8 true true, .crcfeed 0xFF#8, .rxwr 19#5 0xEB#8].map encode =
    [0x03326401#32, 0x0000FF04#32, 0x0013EB05#32] := by decide

/-! ### Well-formedness: the one check refuses an index outside RX (R77) -/

theorem test_illformed_rxwr_20 : (Instr.rxwr 20#5 0x00#8).wf = false := by decide

theorem test_illformed_rxwr_31 : (Instr.rxwr 31#5 0x00#8).wf = false := by decide

theorem test_wellformed_rxwr_19 : (Instr.rxwr 19#5 0x00#8).wf = true := by decide

/-! ### Checksum (spec/95_test_vectors.md V-A) -/

theorem test_crc8_check_value :
    chk crc8 [0x31#8, 0x32#8, 0x33#8, 0x34#8, 0x35#8, 0x36#8, 0x37#8, 0x38#8, 0x39#8] = 0xF4#8 := by decide +kernel

theorem test_sum8_wraps : chk sum8 [0xFF#8, 0x01#8] = 0x00#8 := by decide

theorem test_feed_then_crcout : crcOut crc8 (feedAcc crc8 0x02#8 (feedAcc crc8 0x01#8 (clearAcc crc8 State.reset))).acc =
    0x1B#8 := by decide +kernel

/-! ### ENC (spec/95_test_vectors.md V-B) -/

/-- The word of `ENC 100, 50, FWD, FWD`, as the first step after reset of the block with `SUM8`. -/
theorem test_enc_frame : (nextOf (stepWith sum8 ((State.resetWith sum8).withFetchWord 32 0x03326401))).map (·.tx) =
    some #v[0x55#8, 0xAA#8, 0x08#8, 0x10#8, 0x80#8, 0xF0#8, 0x64#8, 0x32#8, 0x00#8, 0x00#8, 0x00#8, 0x1D#8] := by
  decide

/-- The span is 11 bytes, not 10 (spec/90_conflicts.md C1): 0x93, where a 10-byte span would give 0x5C. -/
theorem test_enc_checksum_span : (encodeCommand crc8 0#8 255#8 false true)[11] = 0x93#8 := by decide +kernel

/-! ### DEC (spec/95_test_vectors.md V-C) -/

/-- Frame T2. -/
def frameT2 : TelemetryFrame :=
  #v[0x55#8, 0xAA#8, 0x10#8, 0x01#8, 0xE0#8, 0xA0#8, 0x32#8, 0x3C#8, 0x00#8, 0x00#8, 0x05#8, 0x06#8, 0x01#8, 0x2C#8,
    0x01#8, 0x34#8, 0x12#8, 0x00#8, 0x00#8, 0x7D#8]

/-- V-C2: the registers, the event and STATUS. -/
theorem test_dec_T2 :
    let t := decodeRx sum8 { State.reset with rx := frameT2 }
    t.left = { dir := 0xFF#8, spd := 0xFFCE#16, raw := 300#16, tck := 0xFFFFFED4#32 } ∧
      t.right = { dir := 0xFF#8, spd := 0xFFC4#16, raw := 4660#16, tck := 0xFFFFEDCC#32 } ∧
      t.sink = [{ leftDir := 0xFF#8, rightDir := 0xFF#8, leftTicks := 0xFFFFFED4#32, rightTicks := 0xFFFFEDCC#32
                  leftSpeed := 0xFFCE#16, rightSpeed := 0xFFC4#16 }] ∧
      statusByte t = 0x09#8 := by decide

/-- V-C2 with `TICK_LE = false`: raw L is 0x2C01, raw R 0x3412. -/
theorem test_dec_T2_big_endian :
    (nextOf (execWith { sum8 with tickLE := false } .dec { State.reset with rx := frameT2 })).map
      (fun t => (t.left.raw, t.right.raw, t.left.tck)) =
        some (11265#16, 13330#16, BitVec.ofInt 32 (-11265)) := by decide

/-! ### Odometry (spec/95_test_vectors.md V-D3, V-D4, E6) -/

/-- V-D3 and V-D4: the same wrap under MOD16 and under INT. -/
theorem test_odo_wrap_in_both_modes :
    odoUpdate sum8 ⟨1#8, 10#16, 65530#16, 1000#32⟩ 1 10#8 4#16 = ⟨1#8, 10#16, 4#16, 1010#32⟩ ∧
    odoUpdate { sum8 with deltaMode := .int } ⟨1#8, 10#16, 65530#16, 1000#32⟩ 1 10#8 4#16 =
      ⟨1#8, 10#16, 4#16, BitVec.ofInt 32 (-64526)⟩ := by decide

/-- E6: a reversal and a restart reset the baseline, a speed that falls to zero does not. -/
theorem test_odo_baseline :
    odoUpdate sum8 ⟨1#8, 100#16, 800#16, 800#32⟩ (-1) 100#8 30#16 = ⟨0xFF#8, BitVec.ofInt 16 (-100), 30#16, 770#32⟩ ∧
    odoUpdate sum8 ⟨1#8, 0#16, 100#16, 100#32⟩ 1 20#8 7#16 = ⟨1#8, 20#16, 7#16, 107#32⟩ ∧
    odoUpdate sum8 ⟨1#8, 100#16, 100#16, 100#32⟩ 1 0#8 100#16 = ⟨1#8, 0#16, 100#16, 100#32⟩ := by decide

/-! ### Steps, reads and the port -/

/-- V-E: `RXWR 19, 0xEB`, fetched and run as the first command after reset. -/
theorem test_step_rxwr : (nextOf (step (State.reset.withFetchWord 32 0x0013EB05))).map
    (fun t => (t.rx[19], t.rx[18], t.port)) = some (0xEB#8, 0x00#8, []) := by decide

/-- V-E: an RXWR with index 20 leaves RX and sets ILL. -/
theorem test_step_illformed : (nextOf (step (State.reset.withFetchWord 32 0x00140005))).map
    (fun t => (t.rx == State.reset.rx, readByte 0x3C#8 t)) = some (true, 0x10#8) := by decide

/-- V-C2: L.tck reads little-endian at 0x4A to 0x4D and L.spd at 0x42 to 0x43; 0x52 is unmapped. -/
theorem test_reads_after_T2 :
    let t := decodeRx sum8 { State.reset with rx := frameT2 }
    [0x4A#8, 0x4B#8, 0x4C#8, 0x4D#8, 0x42#8, 0x43#8, 0x34#8, 0x52#8].map (fun a => readWith sum8 a t) =
      [0xD4#8, 0xFE#8, 0xFF#8, 0xFF#8, 0xCE#8, 0xFF#8, 0x01#8, 0x00#8] := by decide

/-! ### Notation (spec/95_test_vectors.md P1, P4; spec/30_encoding.md R83) -/

theorem test_assemble_program : assembleProgram
    ["ENC      100, 50, FWD, FWD   ; build".toList, "CRCFEED  0xAA".toList, "".toList, "RXWR 19, 0xEB".toList] =
      some [0x03326401#32, 0x0000AA04#32, 0x0013EB05#32] := by decide

/-- P2: the first RECV line of spec/95_test_vectors.md, at three of its 21 words. -/
theorem test_assemble_recv : (assembleLine
    "RECV 0x55,0xAA,0x10,0x01,0xE0,0xF0,0x64,0x64,0x00,0x00,0x12,0x13,0x00,0x0A,0x00,0x14,0x00,0x00,0x00,0xEB".toList).map
      (fun is => (is.length, (is.map encode)[4]?, (is.map encode)[19]?, (is.map encode)[20]?)) =
    some (21, some 0x0004E005#32, some 0x0013EB05#32, some 0x00000002#32) := by decide +kernel

theorem test_assemble_refuses : ["CRCFEED 256", "RXWR 20, 0", "ENC 1, 2, 3, 0", "DEC 1", "LOAD 1", "RXLOAD 1, 2"].map
    (fun l => assembleLine l.toList) = [none, none, none, none, none, none] := by decide

/-! ### Witnesses: states and operands that meet the hypotheses of the statements -/

/-- A frame with the good preamble, the given bytes 5 to 18 and a given last byte. -/
def frameOf (dir spdL spdR err rl0 rl1 rr0 rr1 res last : Byte) : TelemetryFrame :=
  #v[0x55#8, 0xAA#8, 0x10#8, 0x01#8, 0xE0#8, dir, spdL, spdR, res, res, res, res, err, rl0, rl1, rr0, rr1, res, res, last]

/-- The same frame with the block's own checksum, whatever `CHK` is: a valid frame. -/
def validFrame (dir spdL spdR err rl0 rl1 rr0 rr1 res : Byte) : TelemetryFrame :=
  frameOf dir spdL spdR err rl0 rl1 rr0 rr1 res
    (chk blockParams ((frameOf dir spdL spdR err rl0 rl1 rr0 rr1 res 0#8).toList.take 19))

theorem validFrame_valid (dir spdL spdR err rl0 rl1 rr0 rr1 res : Byte) :
    frameValid blockParams (validFrame dir spdL spdR err rl0 rl1 rr0 rr1 res) = true := by
  rw [frameValid_iff]
  exact ⟨rfl, by unfold checksumGood; exact beq_iff_eq.2 rfl⟩

/-- A state about to decode a valid frame. -/
def readyState : State := { State.reset with rx := validFrame 0xF0#8 100#8 100#8 0#8 10#8 0#8 20#8 0#8 0#8 }

theorem witness_DecodeOfEncode : (Instr.rxwr 19#5 0xFF#8).wf = true ∧ (Instr.enc 255#8 0#8 true false).wf = true := by
  decide

theorem witness_EncodeOfDecode : decode 0x0013EB05#32 = .instr (.rxwr 19#5 0xEB#8) := by decide

theorem witness_DecoderFollows_reserved : 6 ≤ (0x00000006#32 &&& 0xFF#32).toNat ∧ 6 ≤ (0xFFFFFFFF#32 &&& 0xFF#32).toNat := by
  decide

theorem witness_Operands : decode 0x01FFFF01#32 = .instr (.enc 255#8 255#8 true false) ∧
    decode 0x0000FF04#32 = .instr (.crcfeed 0xFF#8) ∧ decode 0x0013EB05#32 = .instr (.rxwr 19#5 0xEB#8) := by decide

theorem witness_StepRuns : ∃ s : State, s.port = .command 0x00000002#32 :: [.reset] ∧
    decode 0x00000002#32 = .instr .dec := ⟨{ State.reset with port := [.command 2#32, .reset] }, by decide⟩

theorem witness_FetchedWord : decodeTableWord 32 0x03326401 = some (.enc 100#8 50#8 true true) := by decide

/-- Each kind of ill-formed word, at the edges of its range. -/
theorem witness_IllFormed :
    (∃ s : State, s.port = .command 0x00000006#32 :: []) ∧
    6 ≤ (0x00000006#32 &&& 0xFF#32).toNat ∧ 6 ≤ (0x000000FF#32 &&& 0xFF#32).toNat ∧
    (0x00000100#32 &&& 0xFF#32 = 0#32 ∧ 0x00000100#32 &&& 0xFFFFFF00#32 ≠ 0#32) ∧
    (0x80000002#32 &&& 0xFF#32 = 2#32 ∧ 0x80000002#32 &&& 0xFFFFFF00#32 ≠ 0#32) ∧
    (0x00000103#32 &&& 0xFF#32 = 3#32 ∧ 0x00000103#32 &&& 0xFFFFFF00#32 ≠ 0#32) ∧
    (0x04000001#32 &&& 0xFF#32 = 1#32 ∧ 0x04000001#32 &&& 0xFC000000#32 ≠ 0#32) ∧
    (0x00010004#32 &&& 0xFF#32 = 4#32 ∧ 0x00010004#32 &&& 0xFFFF0000#32 ≠ 0#32) ∧
    (0x00200005#32 &&& 0xFF#32 = 5#32 ∧ 0x00200005#32 &&& 0xFFE00000#32 ≠ 0#32) ∧
    (0x00140005#32 &&& 0xFF#32 = 5#32 ∧ 20 ≤ ((0x00140005#32 >>> 16) &&& 0x1F#32).toNat) ∧
    (0x001F0005#32 &&& 0xFF#32 = 5#32 ∧ 20 ≤ ((0x001F0005#32 >>> 16) &&& 0x1F#32).toNat) :=
  ⟨⟨{ State.reset with port := [.command 6#32] }, rfl⟩, by decide⟩

theorem witness_IllFormed_sticky : ∃ s t : State, Instr.nop.wf = true ∧ s.ill = true ∧ exec .nop s = .next t :=
  ⟨{ State.reset with ill := true }, _, rfl, rfl, rfl⟩

theorem witness_ReadAction : ∃ s : State, s.port = .read 0xFF#8 :: [] := ⟨{ State.reset with port := [.read 0xFF#8] }, rfl⟩

theorem witness_ResetAction : ∃ s : State, s.port = .reset :: [.read 0#8] ∧ s.ill = true :=
  ⟨{ State.reset with port := [.reset, .read 0#8], ill := true }, rfl, rfl⟩

theorem witness_Idle : State.reset.port = [] := rfl

theorem witness_Rxwr : (0#5).toNat < 20 ∧ (19#5).toNat < 20 := by decide

theorem witness_Rxwr_words : 0x00200005#32 &&& 0xFF#32 = 5#32 ∧ 0x00200005#32 &&& 0xFFE00000#32 ≠ 0#32 ∧
    20 ≤ ((0x00140005#32 >>> 16) &&& 0x1F#32).toNat := by decide

theorem witness_RxwrOutside : 20 ≤ (20#5).toNat ∧ 20 ≤ (31#5).toNat := by decide

theorem witness_Crcfeed_word : 0x00010004#32 &&& 0xFF#32 = 4#32 ∧ 0x00010004#32 &&& 0xFFFF0000#32 ≠ 0#32 := by decide

/-- Feeds with an ill-formed word, a read and a DEC between them (spec/95_test_vectors.md V-A). -/
theorem witness_Engine : ∀ a ∈ [HostAction.command 0x00000104#32, .command 0x00010004#32, .read 0x3D#8,
    .command 0x00000002#32, .command 0x00000204#32], a ≠ .reset ∧ commandOf a ≠ some .crcclr := by decide

theorem witness_Engine_enc : ∃ t : State, exec (.enc 1#8 2#8 true false) State.reset = .next t := ⟨_, rfl⟩

theorem witness_OnlyTheEngine : ∃ s t : State, Instr.dec ≠ .crcclr ∧ (∀ b, Instr.dec ≠ .crcfeed b) ∧ exec .dec s = .next t ∧
    (0x3C#8 : Byte) ≠ 0x3D#8 := ⟨State.reset, _, by decide, fun _ h => Instr.noConfusion h, rfl, by decide⟩

theorem witness_Enc_word : 0x04000001#32 &&& 0xFF#32 = 1#32 ∧ 0x04000001#32 &&& 0xFC000000#32 ≠ 0#32 := by decide

theorem witness_EncRead : 12 ≤ (0x0C#8 : Byte).toNat ∧ (0x0C#8 : Byte) ≠ 0x3C#8 := by decide

/-- A frame wrong in its last preamble byte only. -/
theorem witness_BadPreamble : ∃ s : State,
    s.rx[0] = 0x55#8 ∧ s.rx[1] = 0xAA#8 ∧ s.rx[2] = 0x10#8 ∧ s.rx[3] = 0x01#8 ∧ ¬ s.rx[4] = 0xE0#8 :=
  ⟨{ State.reset with rx := frameT2.set 4 0xE1#8 }, by decide⟩

/-- A frame whose last byte is one more than its checksum, whatever `CHK` is. -/
theorem witness_BadChecksum : ∃ s : State,
    (s.rx[0] = 0x55#8 ∧ s.rx[1] = 0xAA#8 ∧ s.rx[2] = 0x10#8 ∧ s.rx[3] = 0x01#8 ∧ s.rx[4] = 0xE0#8) ∧
    (s.rx.toList.take 19).foldl Config.chkStep Config.chkInit ^^^ Config.chkXorout ≠ s.rx[19] := by
  let body := (frameOf 0xF0#8 1#8 1#8 0#8 1#8 0#8 1#8 0#8 0#8 0#8).toList.take 19
  refine ⟨{ State.reset with rx := frameOf 0xF0#8 1#8 1#8 0#8 1#8 0#8 1#8 0#8 0#8 (chk blockParams body + 1#8) },
    ⟨rfl, rfl, rfl, rfl, rfl⟩, ?_⟩
  change chk blockParams body ≠ chk blockParams body + 1#8
  generalize chk blockParams body = x
  revert x
  decide

theorem witness_ValidFrame :
    (readyState.rx[0] = 0x55#8 ∧ readyState.rx[1] = 0xAA#8 ∧ readyState.rx[2] = 0x10#8 ∧ readyState.rx[3] = 0x01#8 ∧
      readyState.rx[4] = 0xE0#8) ∧
    (readyState.rx.toList.take 19).foldl Config.chkStep Config.chkInit ^^^ Config.chkXorout = readyState.rx[19] :=
  ⟨⟨rfl, rfl, rfl, rfl, rfl⟩, rfl⟩

theorem witness_DecRead : frameValid blockParams State.reset.rx = false ∧ frameValid blockParams readyState.rx = true ∧
    (0x3B#8 : Byte) ≠ 0x3C#8 ∧ (0x27#8 : Byte).toNat < 0x28 ∧ 0x52 ≤ (0x52#8 : Byte).toNat :=
  ⟨rfl, validFrame_valid .., by decide, by decide, by decide⟩

theorem witness_RepeatedDec : ∃ t : State, frameValid blockParams readyState.rx = true ∧ exec .dec readyState = .next t :=
  ⟨_, validFrame_valid .., rfl⟩

/-- Two valid frames that differ in error byte, reserved and power bytes and low nibble. -/
theorem witness_OtherBytes : ∃ s s' t t' : State,
    frameValid blockParams s.rx = true ∧ frameValid blockParams s'.rx = true ∧
    s.left = s'.left ∧ s.right = s'.right ∧ s.sink = s'.sink ∧ s.rx[12] ≠ s'.rx[12] ∧ s.rx[8] ≠ s'.rx[8] ∧
    s.rx[5] &&& 0xF0#8 = s'.rx[5] &&& 0xF0#8 ∧ s.rx[5] ≠ s'.rx[5] ∧ s.rx[6] = s'.rx[6] ∧ s.rx[7] = s'.rx[7] ∧
    s.rx[13] = s'.rx[13] ∧ s.rx[14] = s'.rx[14] ∧ s.rx[15] = s'.rx[15] ∧ s.rx[16] = s'.rx[16] ∧
    exec .dec s = .next t ∧ exec .dec s' = .next t' :=
  ⟨readyState, { readyState with rx := validFrame 0xF5#8 100#8 100#8 1#8 10#8 0#8 20#8 0#8 0xDE#8 }, _, _,
    validFrame_valid .., validFrame_valid .., rfl, rfl, rfl, by decide, by decide, by decide, by decide, rfl, rfl, rfl,
    rfl, rfl, rfl, rfl, rfl⟩

/-- Two valid frames with one left wheel and different right wheels; with the sides exchanged it is the other
clause. -/
theorem witness_Wheels : ∃ s s' t t' : State,
    frameValid blockParams s.rx = true ∧ frameValid blockParams s'.rx = true ∧
    exec .dec s = .next t ∧ exec .dec s' = .next t' ∧ s.left = s'.left ∧
    s.rx[5] &&& 0xC0#8 = s'.rx[5] &&& 0xC0#8 ∧ s.rx[6] = s'.rx[6] ∧ s.rx[13] = s'.rx[13] ∧ s.rx[14] = s'.rx[14] ∧
    s.rx[7] ≠ s'.rx[7] :=
  ⟨readyState, { readyState with rx := validFrame 0xE0#8 100#8 7#8 0#8 10#8 0#8 99#8 3#8 0#8 }, _, _,
    validFrame_valid .., validFrame_valid .., rfl, rfl, rfl, by decide, rfl, rfl, rfl, by decide⟩

theorem witness_Wheels_right : ∃ s s' t t' : State,
    frameValid blockParams s.rx = true ∧ frameValid blockParams s'.rx = true ∧
    exec .dec s = .next t ∧ exec .dec s' = .next t' ∧ s.right = s'.right ∧
    s.rx[5] &&& 0x30#8 = s'.rx[5] &&& 0x30#8 ∧ s.rx[7] = s'.rx[7] ∧ s.rx[15] = s'.rx[15] ∧ s.rx[16] = s'.rx[16] ∧
    s.rx[6] ≠ s'.rx[6] :=
  ⟨readyState, { readyState with rx := validFrame 0xB0#8 7#8 100#8 0#8 99#8 3#8 20#8 0#8 0#8 }, _, _,
    validFrame_valid .., validFrame_valid .., rfl, rfl, rfl, by decide, rfl, rfl, rfl, by decide⟩

theorem witness_Directions : ((-1 : Int) = -1 ∨ (-1 : Int) = 0 ∨ (-1 : Int) = 1) ∧
    ((0 : Int) = -1 ∨ (0 : Int) = 0 ∨ (0 : Int) = 1) := by decide

/-- Each of the three reset conditions alone, and none of them (spec/95_test_vectors.md E6). -/
theorem witness_Baseline :
    (∃ w : Wheel, (0 : Int) = 0 ∧ ¬ (0 : Int) ≠ w.dir.toInt) ∧
    (∃ w : Wheel, (-1 : Int) ≠ w.dir.toInt ∧ ¬ w.spd.toInt = 0) ∧
    (∃ w : Wheel, w.spd.toInt = 0 ∧ (1 : Int) * ((20#8 : Byte).toNat : Int) ≠ 0 ∧ ¬ (1 : Int) ≠ w.dir.toInt) ∧
    ∃ w : Wheel, ¬ ((1 : Int) = 0 ∨ (1 : Int) ≠ w.dir.toInt ∨
      (w.spd.toInt = 0 ∧ (1 : Int) * ((100#8 : Byte).toNat : Int) ≠ 0)) :=
  ⟨⟨Wheel.reset, by decide⟩, ⟨⟨1#8, 100#16, 800#16, 800#32⟩, by decide⟩, ⟨⟨1#8, 0#16, 100#16, 100#32⟩, by decide⟩,
    ⟨⟨1#8, 100#16, 10#16, 10#32⟩, by decide⟩⟩

theorem witness_TickDelta : (7#16).toNat ≤ (7#16).toNat ∧ (0#16).toNat ≤ (65535#16).toNat := by decide

/-- The edges of the unmapped ranges. -/
theorem witness_Unmapped : ∀ a ∈ [0x0C#8, 0x0F#8, 0x24#8, 0x27#8, 0x3E#8, 0x3F#8, 0x52#8, 0xFF#8],
    (0x0C ≤ a.toNat ∧ a.toNat ≤ 0x0F) ∨ (0x24 ≤ a.toNat ∧ a.toNat ≤ 0x27) ∨
      (0x3E ≤ a.toNat ∧ a.toNat ≤ 0x3F) ∨ 0x52 ≤ a.toNat := by decide

/-- NOP meets every clause's hypothesis at once. -/
theorem witness_Writers : ∃ s t : State, exec .nop s = .next t ∧ Instr.nop ≠ .dec ∧
    (∀ ls rs ld rd, Instr.nop ≠ .enc ls rs ld rd) ∧ (∀ idx b, Instr.nop ≠ .rxwr idx b) ∧ Instr.nop ≠ .crcclr ∧
    (∀ b, Instr.nop ≠ .crcfeed b) ∧ Instr.nop.wf = true :=
  ⟨State.reset, _, rfl, by decide, fun _ _ _ _ h => Instr.noConfusion h, fun _ _ h => Instr.noConfusion h, by decide,
    fun _ h => Instr.noConfusion h, rfl⟩

/-- A step at each kind of action: reset, an ill-formed word, and ENC. -/
theorem witness_Sticky :
    (∃ s t : State, s.port = .reset :: [] ∧ step s = .next t ∧ s.ill = true ∧ s.txv = true) ∧
    (∃ s t : State, s.port = .command 0x00000006#32 :: [] ∧ step s = .next t ∧
      (HostAction.command 0x00000006#32 ≠ .reset) ∧ isIllFormed (.command 0x00000006#32) = true) ∧
    ∃ s t : State, s.port = .command 0x00000001#32 :: [] ∧ step s = .next t ∧
      commandOf (.command 0x00000001#32) = some (.enc 0#8 0#8 false false) :=
  ⟨⟨{ State.reset with port := [.reset], ill := true, txv := true }, _, rfl, rfl, rfl, rfl⟩,
    ⟨{ State.reset with port := [.command 6#32] }, _, rfl, rfl, by decide, by decide⟩,
    ⟨{ State.reset with port := [.command 1#32] }, _, rfl, rfl, by decide⟩⟩

/-- A DEC of a valid frame, and a DEC of a rejected one. -/
theorem witness_ValidDec :
    (∃ s t : State, s.port = .command 0x00000002#32 :: [] ∧ HostAction.command 0x00000002#32 ≠ .reset ∧
      step s = .next t ∧ commandOf (.command 0x00000002#32) = some .dec ∧ frameValid blockParams s.rx = true) ∧
    ∃ s t : State, s.port = .command 0x00000002#32 :: [] ∧ step s = .next t ∧
      ¬ (commandOf (.command 0x00000002#32) = some .dec ∧ frameValid blockParams s.rx = true) :=
  ⟨⟨{ readyState with port := [.command 2#32] }, _, rfl, by decide, rfl, by decide, validFrame_valid ..⟩,
    ⟨{ State.reset with port := [.command 2#32] }, _, rfl, rfl, fun h => Bool.noConfusion h.2⟩⟩

theorem witness_CleanRun : ∀ a ∈ [HostAction.command 0x00000001#32, .read 0x3C#8, .command 0x00000006#32], a ≠ .reset := by
  decide

/-- A state other than reset that meets the invariant and steps: a byte of RX was written and an RXWR waits. -/
theorem witness_Inv : ∃ s t : State, Inv blockParams s ∧ step s = .next t :=
  ⟨{ State.reset with rx := frameT2, ill := true, port := [.command 0x00005505#32] }, _,
    { tx := rfl
      left := ⟨by decide, by decide, rfl⟩
      right := ⟨by decide, by decide, rfl⟩
      perr := by decide
      history := by simp [State.reset, Wheel.reset]
      fstat := by decide }, rfl⟩

/-- The same of the block with `SUM8`, big-endian counters and integer deltas. -/
theorem witness_Inv_every_block : ∃ (p : Params) (s t : State), p.tickLE = false ∧ p.deltaMode = .int ∧ Inv p s ∧
    stepWith p s = .next t :=
  ⟨{ sum8 with tickLE := false, deltaMode := .int },
    { State.reset with rx := frameT2, port := [.command 0x00000002#32] }, _, rfl, rfl,
    { tx := rfl
      left := ⟨by decide, by decide, rfl⟩
      right := ⟨by decide, by decide, rfl⟩
      perr := by decide
      history := by simp [State.reset, Wheel.reset]
      fstat := by decide }, rfl⟩

/-- Every kind of next action, and none. -/
theorem witness_EveryBlockPerforms :
    (∃ s : State, s.port = .command 0x00000003#32 :: [] ∧ decode 0x00000003#32 = .instr .crcclr) ∧
    (∃ s : State, s.port = .command 0x00140005#32 :: [] ∧ decode 0x00140005#32 = .illegal (.rxIndex 20#5)) ∧
    (∃ s : State, s.port = .read 0x3D#8 :: []) ∧ (∃ s : State, s.port = .reset :: []) ∧ ∃ s : State, s.port = [] :=
  ⟨⟨{ State.reset with port := [.command 3#32] }, by decide⟩,
    ⟨{ State.reset with port := [.command 0x00140005#32] }, by decide⟩,
    ⟨{ State.reset with port := [.read 0x3D#8] }, rfl⟩, ⟨{ State.reset with port := [.reset] }, rfl⟩, ⟨State.reset, rfl⟩⟩

/-- Under `SUM8`, T2 passes both checks, T2 with another last byte fails the second, and the reset zeros the first. -/
theorem witness_EveryBlockDecodes :
    (frameT2[0] = 0x55#8 ∧ frameT2[1] = 0xAA#8 ∧ frameT2[2] = 0x10#8 ∧ frameT2[3] = 0x01#8 ∧ frameT2[4] = 0xE0#8) ∧
    (frameT2.toList.take 19).foldl sum8.chkStep sum8.chkInit ^^^ sum8.chkXorout = frameT2[19] ∧
    (frameT2.toList.take 19).foldl sum8.chkStep sum8.chkInit ^^^ sum8.chkXorout ≠ (frameT2.set 19 0x7E#8)[19] ∧
    State.reset.rx[0] ≠ 0x55#8 := by decide

/-- Operand counts on both sides of 20. -/
theorem witness_AssemblerFrame : (List.range 19).length ≠ 20 ∧ (List.range 21).length ≠ 20 := by decide

theorem witness_AssemblerDirections : (AsmOperand.bwd, false) ∈ [(AsmOperand.fwd, true), (.bwd, false)] := by decide

end Sys2Proof.Tests
end

section
/-! SUPPORT. Facts about frames, wheels and the read port that the proofs about every block share: each says once, for
every parameter record, what one function of the model answers. -/

namespace Sys2Proof.Machine

/-! ### Odometry -/

/-- A signed speed survives storing as an i16. -/
theorem storedSpeed_toInt {d : Int} (h : d = -1 ∨ d = 0 ∨ d = 1) (s : Byte) :
    (BitVec.ofInt 16 (signedSpeed d s)).toInt = signedSpeed d s := by
  have hb := signedSpeed_bounds h s
  exact BitVec.toInt_ofInt_eq_self (by decide) (by omega) (by omega)

/-- The baseline by the reset policy as a proposition (spec/43_odometry.md R163). -/
theorem baseline_eq (w : Wheel) (d v : Int) :
    baseline w d v =
      if d = 0 ∨ d ≠ w.dir.toInt ∨ (w.spd.toInt = 0 ∧ v ≠ 0) then 0 else (w.raw.toNat : Int) := by
  simp only [baseline, resetBase_iff]

/-- `OdoUpdate` of every block follows R162 to R166 of the registers read as numbers. -/
theorem odoUpdate_followsRules (p : Params) (w : Wheel) {d : Int} (s : Byte) (raw : BitVec 16)
    (h : d = -1 ∨ d = 0 ∨ d = 1) : OdoFollowsRules p.deltaMode w (odoUpdate p w d s raw) d s raw.toNat := by
  refine ⟨storedDir_toInt h, storedSpeed_toInt h s, rfl, ?_⟩
  refine (storedTotal_toNat _).trans ?_
  rw [baseline_eq]
  cases p.deltaMode <;> rfl

/-- An updated wheel shows the lane, speed byte and reading it was updated from. -/
theorem odoUpdate_shows (p : Params) (w : Wheel) (lane : BitVec 2) (s : Byte) (raw : BitVec 16) :
    WheelShows (odoUpdate p w (dirDecode lane) s raw) lane s raw where
  dir := storedDir_toInt (dirDecode_cases lane)
  spd := storedSpeed_toInt (dirDecode_cases lane) s
  raw := rfl

/-- The left lane's direction by the masks of spec/43_odometry.md R161. -/
theorem dirDecode_laneL (db : Byte) :
    dirDecode (laneL db) =
      if db &&& 0xC0#8 = 0xC0#8 then 1 else if db &&& 0xC0#8 = 0x80#8 then -1 else 0 := by
  revert db
  decide

/-- The right lane's direction by the masks of spec/43_odometry.md R161. -/
theorem dirDecode_laneR (db : Byte) :
    dirDecode (laneR db) =
      if db &&& 0x30#8 = 0x30#8 then 1 else if db &&& 0x30#8 = 0x20#8 then -1 else 0 := by
  revert db
  decide

/-- The number two bytes make, the high byte first. -/
theorem bytePair_toNat (hi lo : Byte) : (hi ++ lo).toNat = 256 * hi.toNat + lo.toNat := by
  rw [BitVec.toNat_append, ← Nat.shiftLeft_add_eq_or_of_lt lo.isLt, Nat.shiftLeft_eq, Nat.mul_comm]

/-- A tick counter's value in the byte order `TICK_LE` says (spec/20_memory.md R56). -/
theorem raw16_toNat (tickLE : Bool) (b0 b1 : Byte) :
    (raw16 tickLE b0 b1).toNat =
      if tickLE then b0.toNat + 256 * b1.toNat else 256 * b0.toNat + b1.toNat := by
  cases tickLE with
  | false => exact bytePair_toNat b0 b1
  | true => exact (bytePair_toNat b1 b0).trans (Nat.add_comm ..)

/-- The left wheel's update follows the rules, its direction and counter read from the frame's bytes. -/
theorem odoLeft_followsRules (p : Params) (f : TelemetryFrame) (w : Wheel) :
    OdoFollowsRules p.deltaMode w (odoLeft p f w)
      (if f[5] &&& 0xC0#8 = 0xC0#8 then 1 else if f[5] &&& 0xC0#8 = 0x80#8 then -1 else 0) f[6]
      (if p.tickLE then f[13].toNat + 256 * f[14].toNat else 256 * f[13].toNat + f[14].toNat) := by
  rw [← dirDecode_laneL, ← raw16_toNat]
  exact odoUpdate_followsRules p w _ _ (dirDecode_cases _)

/-- The right wheel's update follows the rules, its direction and counter read from the frame's bytes. -/
theorem odoRight_followsRules (p : Params) (f : TelemetryFrame) (w : Wheel) :
    OdoFollowsRules p.deltaMode w (odoRight p f w)
      (if f[5] &&& 0x30#8 = 0x30#8 then 1 else if f[5] &&& 0x30#8 = 0x20#8 then -1 else 0) f[7]
      (if p.tickLE then f[15].toNat + 256 * f[16].toNat else 256 * f[15].toNat + f[16].toNat) := by
  rw [← dirDecode_laneR, ← raw16_toNat]
  exact odoUpdate_followsRules p w _ _ (dirDecode_cases _)

/-- A reset wheel shows a blank frame's lane, speed byte and counter, in either byte order. -/
theorem wheelReset_shows (tickLE : Bool) : WheelShows Wheel.reset 0#2 0x00#8 (raw16 tickLE 0x00#8 0x00#8) :=
  ⟨rfl, rfl, by cases tickLE <;> rfl⟩

/-! ### Frames -/

/-- The checksum check of a telemetry frame with the fold of spec/40_checksum.md R100 written out. -/
theorem checksumGood_iff (p : Params) (f : TelemetryFrame) :
    checksumGood p f = true ↔ (f.toList.take 19).foldl p.chkStep p.chkInit ^^^ p.chkXorout = f[19] :=
  beq_iff_eq

/-- The 12 bytes ENC generates, the last the checksum of the other 11 (spec/41_command_encoder.md R121). -/
theorem encodeCommand_eq (p : Params) (ls rs : Byte) (ld rd : Bool) :
    encodeCommand p ls rs ld rd =
      #v[0x55#8, 0xAA#8, 0x08#8, 0x10#8, 0x80#8, dirPack ld rd, ls, rs, 0x00#8, 0x00#8, 0x00#8,
        chk p [0x55#8, 0xAA#8, 0x08#8, 0x10#8, 0x80#8, dirPack ld rd, ls, rs, 0x00#8, 0x00#8, 0x00#8]] := rfl

/-- A packed direction byte is one of the four of spec/41_command_encoder.md R120. -/
theorem dirPack_mem (ld rd : Bool) : [0xA0#8, 0xB0#8, 0xE0#8, 0xF0#8].contains (dirPack ld rd) = true := by
  revert ld rd
  decide

/-- ENC generates a well-formed command frame (spec/41_command_encoder.md R122). -/
theorem encodeCommand_good (p : Params) (ls rs : Byte) (ld rd : Bool) :
    commandFrameGood p (encodeCommand p ls rs ld rd) = true := by
  have hdir : [0xA0#8, 0xB0#8, 0xE0#8, 0xF0#8].contains (encodeCommand p ls rs ld rd)[5] = true := dirPack_mem ld rd
  have hchk : ((encodeCommand p ls rs ld rd)[11] ==
      chk p ((encodeCommand p ls rs ld rd).toList.take cmdChkSpan)) = true := beq_iff_eq.2 rfl
  rw [commandFrameGood, hdir, hchk]
  rfl

/-! ### The read port -/

/-- CRCOUT reads at 0x3D as ACC under the block's own `CHK_XOROUT` (spec/40_checksum.md R104). -/
theorem readWith_crcOut (p : Params) (s : State) : readWith p 0x3D#8 s = s.acc ^^^ p.chkXorout := by
  simp [readWith, readMap, windowByte, crcOut]

/-! ### DEC, by the outcome of its two checks -/

section
variable {p : Params} {s : State}

/-- A bad preamble is recorded in FSTAT and nothing else happens (spec/42_telemetry_decoder.md R143). -/
theorem decodeRx_of_badPreamble (h : ¬ preambleGood s.rx = true) :
    decodeRx p s = setFstat .preambleMismatch s := by
  rw [decodeRx, if_neg h]

/-- A bad checksum is recorded in FSTAT and nothing else happens (spec/42_telemetry_decoder.md R143). -/
theorem decodeRx_of_badChecksum (hp : preambleGood s.rx = true) (hc : ¬ checksumGood p s.rx = true) :
    decodeRx p s = setFstat .checksumMismatch s := by
  rw [decodeRx, if_pos hp, if_neg hc]

/-- A valid frame is accepted (spec/42_telemetry_decoder.md R142). -/
theorem decodeRx_of_valid (hp : preambleGood s.rx = true) (hc : checksumGood p s.rx = true) :
    decodeRx p s = acceptFrame p s.rx s := by
  rw [decodeRx, if_pos hp, if_pos hc]

end

/-! ### A word that decodes -/

/-- The next action is a command word that decodes: its command runs, at the state with the action taken. -/
theorem stepWith_command (p : Params) {s : State} {w : Word} {i : Instr} {rest : List HostAction}
    (hport : s.port = .command w :: rest) (hdecode : decode w = .instr i) :
    stepWith p s = execWith p i { s with port := rest } := by
  rw [stepWith_cons p hport, execWith_eq, perform, hdecode]

/-- The decoder of table words is the decoder of command words. -/
theorem decodeTableWord_eq_some {nbits w : Nat} {i : Instr} :
    decodeTableWord nbits w = some i ↔ decode (tableWord nbits w) = .instr i := by
  unfold decodeTableWord
  cases decode (tableWord nbits w) <;> simp

end Sys2Proof.Machine
end

section
/-! SUPPORT. The invariant of the registers: each write of the state keeps it, hence every command, every host action
and every step of every block. -/

namespace Sys2Proof.Machine

variable {p : Params} {s : State}

/-- The invariant says nothing of RX, ILL, ACC, the waiting actions or the bytes read. -/
theorem Inv.frame (h : Inv p s) (rx : TelemetryFrame) (ill : Bool) (acc : Byte) (port : List HostAction)
    (reads : List Byte) : Inv p { s with rx := rx, ill := ill, acc := acc, port := port, reads := reads } :=
  ⟨h.tx, h.left, h.right, h.perr, h.history, h.fstat⟩

/-- The blank state meets the invariant: the blank VF has both lanes 00, both speeds 0, both readings 0 and no
error. -/
theorem inv_resetWith (p : Params) : Inv p (State.resetWith p) where
  tx := rfl
  left := by simpa [frameDir, frameSpdL, frameRawL, laneL] using wheelReset_shows p.tickLE
  right := by simpa [frameDir, frameSpdR, frameRawR, laneR] using wheelReset_shows p.tickLE
  perr := rfl
  history := by simp [Wheel.reset]
  fstat := ⟨fun h => FrameStatus.noConfusion h, fun _ => rfl⟩

/-- ENC replaces TX by a well-formed frame and sets TXV with it. -/
theorem Inv.loadTx_encodeCommand (h : Inv p s) (ls rs : Byte) (ld rd : Bool) :
    Inv p (loadTx (encodeCommand p ls rs ld rd) s) where
  tx := encodeCommand_good p ls rs ld rd
  left := h.left
  right := h.right
  perr := h.perr
  history := h.history
  fstat := h.fstat

/-- A rejected frame's status is neither VALID nor NONE, so it says nothing of SINK. -/
theorem Inv.setFstat_of_rejected (h : Inv p s) {r : FrameStatus} (hvalid : r ≠ .valid) (hnone : r ≠ .none) :
    Inv p (setFstat r s) where
  tx := h.tx
  left := h.left
  right := h.right
  perr := h.perr
  history := h.history
  fstat := ⟨fun hr => absurd hr hvalid, fun hr => absurd hr hnone⟩

/-- Accepting a valid frame establishes every clause but TX's anew: VF, both wheels, PERR and the last event are all of
the one frame. -/
theorem Inv.acceptFrame (h : Inv p s) {f : TelemetryFrame} (hf : frameValid p f = true) :
    Inv p (acceptFrame p f s) where
  tx := h.tx
  left := odoUpdate_shows p s.left (laneL (frameDir f)) (frameSpdL f) (frameRawL p f)
  right := odoUpdate_shows p s.right (laneR (frameDir f)) (frameSpdR f) (frameRawR p f)
  perr := rfl
  history := by simp [acceptFrame_eq, hf]
  fstat := by simp [acceptFrame_eq]

/-- DEC keeps the invariant: a rejected frame writes FSTAT only, a valid one is accepted. -/
theorem Inv.decodeRx (h : Inv p s) : Inv p (decodeRx p s) := by
  obtain ⟨-, heq⟩ | ⟨-, -, heq⟩ | ⟨hp, hc, heq⟩ := decodeRx_cases p s <;> rw [heq]
  · exact h.setFstat_of_rejected (by decide) (by decide)
  · exact h.setFstat_of_rejected (by decide) (by decide)
  · exact h.acceptFrame ((frameValid_iff p s.rx).2 ⟨hp, hc⟩)

/-- An ill-formed word keeps the invariant. -/
theorem Inv.recordIll (h : Inv p s) : Inv p (recordIll s) := h.frame ..

/-- Every command keeps the invariant. -/
theorem Inv.execState (h : Inv p s) (i : Instr) : Inv p (execState p i s) := by
  cases i with
  | nop => exact h
  | enc ls rs ld rd => exact h.loadTx_encodeCommand ls rs ld rd
  | dec => exact h.decodeRx
  | crcclr => exact h.frame ..
  | crcfeed b => exact h.frame ..
  | rxwr idx b =>
    dsimp only [Machine.execState]
    split
    · exact h.frame ..
    · exact h.recordIll

/-- Every host action keeps the invariant; a reset establishes it. -/
theorem Inv.perform (h : Inv p s) (a : HostAction) : Inv p (perform p a s) := by
  cases a with
  | command w =>
    dsimp only [Machine.perform]
    cases decode w with
    | instr i => exact h.execState i
    | illegal _ => exact h.recordIll
  | read _ => exact h.frame ..
  | reset => exact (inv_resetWith p).frame ..

/-- Every step of every block keeps the invariant. -/
theorem Inv.stepWith {t : State} (h : Inv p s) (hstep : stepWith p s = .next t) : Inv p t := by
  cases hport : s.port with
  | nil =>
    rw [stepWith_nil p hport] at hstep
    cases hstep
    exact h
  | cons a rest =>
    rw [stepWith_cons p hport] at hstep
    cases hstep
    exact Inv.perform (h.frame ..) a

end Sys2Proof.Machine
end

section
/-! SUPPORT. The statements about the scope of the model (spec/00_scope.md), settled. -/

namespace Sys2Proof.Machine

/-- Settles O48: the modelled block's step is that of the machine at its parameters, and every step of every block
keeps the invariant. -/
theorem everyStepKeepsTheRegisterInv : Obligations.EveryStepKeepsTheRegisterInv :=
  ⟨fun s _ h hstep => h.stepWith (step_eq_stepWith s ▸ hstep), fun _ _ _ h hstep => h.stepWith hstep⟩

/-- Settles O55, by the outcome of the two checks; of a valid frame the wheels are those of `OdoUpdate`, whose direction
and reading are the masks and the counter the statement writes out. -/
theorem everyBlockDecodesByItsParameters : Obligations.EveryBlockDecodesByItsParameters := by
  intro p s preambleOk checksumOk dL dR counter
  have hpre : preambleGood s.rx = true ↔ preambleOk := preambleGood_iff s.rx
  have hchk : checksumGood p s.rx = true ↔ checksumOk := checksumGood_iff p s.rx
  rw [← hpre, ← hchk, execWith_eq]
  refine ⟨fun hp => congrArg _ (decodeRx_of_badPreamble hp),
    fun hp hc => congrArg _ (decodeRx_of_badChecksum hp hc),
    fun hp hc => ⟨odoLeft p s.rx s.left, odoRight p s.rx s.right, ?_, odoLeft_followsRules p s.rx s.left,
      odoRight_followsRules p s.rx s.right⟩⟩
  exact congrArg _ ((decodeRx_of_valid hp hc).trans (acceptFrame_eq p s.rx s))

/-- Settles O6. -/
theorem stepRunsTheDecodedCommand : Obligations.StepRunsTheDecodedCommand := by
  intro s w rest i hport hdecode
  rw [step_eq_stepWith, exec_eq_execWith, stepWith_command blockParams hport hdecode]

/-- Settles O7: the word stands first in the port, and taking it gives back the state before it was placed. -/
theorem fetchedWordRunsNext : Obligations.FetchedWordRunsNext := by
  intro s nbits w i hdecode
  exact stepRunsTheDecodedCommand (s.withFetchWord nbits w) (tableWord nbits w) s.port i rfl
    (decodeTableWord_eq_some.1 hdecode)

/-- Settles O12: an action waits or none does, and either way the step has a next state. -/
theorem everyStateHasANextState : Obligations.EveryStateHasANextState := by
  intro s
  cases hport : s.port with
  | nil => exact ⟨s, step_nil hport⟩
  | cons a rest => exact ⟨_, step_cons hport⟩

/-- Settles O52: exec and step agree with their parametric forms, hence so does every run. -/
theorem theBlockIsTheMachineAtItsParameters : Obligations.TheBlockIsTheMachineAtItsParameters := by
  refine ⟨exec_eq_execWith, step_eq_stepWith, rfl, fun _ _ => rfl, fun n s => ?_⟩
  change (Host.Core.mk State Fault Refusal step State.reset).run n s = _
  rw [funext step_eq_stepWith]
  rfl

/-- Settles O53, by the kind of the next action. -/
theorem everyBlockPerformsTheNextAction : Obligations.EveryBlockPerformsTheNextAction := by
  intro p s rest
  refine ⟨fun w i hport hdecode => stepWith_command p hport hdecode, fun w why hport hdecode => ?_,
    fun a hport => stepWith_cons p hport, fun hport => stepWith_cons p hport, fun hport => stepWith_nil p hport⟩
  rw [stepWith_cons p hport, perform, hdecode]
  rfl

/-- Settles O54: each command is its one write, ENC's the frame with the checksum written out, and CRCOUT is read at
0x3D. -/
theorem everyBlockUsesItsOwnChecksum : Obligations.EveryBlockUsesItsOwnChecksum := by
  intro p s
  refine ⟨rfl, rfl, fun _ => rfl, fun _ _ => rfl, fun ls rs ld rd => ?_, readWith_crcOut p s, rfl,
    readWith_crcOut p (State.resetWith p)⟩
  rw [execWith_eq, execState, encodeInto, encodeCommand_eq]
  rfl

end Sys2Proof.Machine
end

section
/-! SUPPORT. Who writes which element of the state (spec/10_state.md R20, spec/20_memory.md R59), of every block: what
each command leaves unchanged, and what a host action can be. -/

namespace Sys2Proof.Machine

/-! ### DEC and RXWR, the two commands with more than one outcome -/

/-- DEC writes at most VF, FSTAT, PERR, both wheels and SINK, whatever RX holds. -/
theorem decodeRx_frame (p : Params) (s : State) :
    decodeRx p s =
      { s with
        vf := (decodeRx p s).vf, fstat := (decodeRx p s).fstat, perr := (decodeRx p s).perr
        left := (decodeRx p s).left, right := (decodeRx p s).right, sink := (decodeRx p s).sink } := by
  obtain ⟨-, heq⟩ | ⟨-, -, heq⟩ | ⟨-, -, heq⟩ := decodeRx_cases p s <;> rw [heq] <;> rfl

section
variable (p : Params) (s : State)

@[simp] theorem decodeRx_tx : (decodeRx p s).tx = s.tx := by rw [decodeRx_frame]
@[simp] theorem decodeRx_rx : (decodeRx p s).rx = s.rx := by rw [decodeRx_frame]
@[simp] theorem decodeRx_txv : (decodeRx p s).txv = s.txv := by rw [decodeRx_frame]
@[simp] theorem decodeRx_ill : (decodeRx p s).ill = s.ill := by rw [decodeRx_frame]
@[simp] theorem decodeRx_port : (decodeRx p s).port = s.port := by rw [decodeRx_frame]
@[simp] theorem decodeRx_reads : (decodeRx p s).reads = s.reads := by rw [decodeRx_frame]

end

/-- DEC of a frame that is not valid writes FSTAT only (spec/42_telemetry_decoder.md R143). -/
theorem decodeRx_of_invalid {p : Params} {s : State} (h : ¬ frameValid p s.rx = true) :
    ∃ r, decodeRx p s = setFstat r s := by
  obtain ⟨-, heq⟩ | ⟨-, -, heq⟩ | ⟨hp, hc, -⟩ := decodeRx_cases p s
  · exact ⟨_, heq⟩
  · exact ⟨_, heq⟩
  · exact absurd ((frameValid_iff p s.rx).2 ⟨hp, hc⟩) h

/-- RXWR writes at most RX and ILL, whatever its index. -/
theorem execState_rxwr_frame (p : Params) (idx : BitVec 5) (b : Byte) (s : State) :
    execState p (.rxwr idx b) s =
      { s with rx := (execState p (.rxwr idx b) s).rx, ill := (execState p (.rxwr idx b) s).ill } := by
  dsimp only [execState]
  split <;> rfl

/-! ### What each command leaves unchanged -/

section
variable (p : Params) {i : Instr} (s : State)

/-- VF, FSTAT, PERR, the wheels and SINK are DEC's alone. -/
theorem execState_keepsDecoderElements (h : i ≠ .dec) :
    (execState p i s).vf = s.vf ∧ (execState p i s).fstat = s.fstat ∧ (execState p i s).perr = s.perr ∧
      (execState p i s).left = s.left ∧ (execState p i s).right = s.right ∧ (execState p i s).sink = s.sink := by
  cases i with
  | dec => exact absurd rfl h
  | rxwr idx b =>
    rw [execState_rxwr_frame]
    exact ⟨rfl, rfl, rfl, rfl, rfl, rfl⟩
  | nop | enc | crcclr | crcfeed => exact ⟨rfl, rfl, rfl, rfl, rfl, rfl⟩

/-- TX and TXV are ENC's alone. -/
theorem execState_keepsEncoderElements (h : ∀ ls rs ld rd, i ≠ .enc ls rs ld rd) :
    (execState p i s).tx = s.tx ∧ (execState p i s).txv = s.txv := by
  cases i with
  | enc ls rs ld rd => exact absurd rfl (h ls rs ld rd)
  | dec => exact ⟨decodeRx_tx p s, decodeRx_txv p s⟩
  | rxwr idx b =>
    rw [execState_rxwr_frame]
    exact ⟨rfl, rfl⟩
  | nop | crcclr | crcfeed => exact ⟨rfl, rfl⟩

/-- RX is RXWR's alone. -/
theorem execState_rx (h : ∀ idx b, i ≠ .rxwr idx b) : (execState p i s).rx = s.rx := by
  cases i with
  | rxwr idx b => exact absurd rfl (h idx b)
  | dec => exact decodeRx_rx p s
  | nop | enc | crcclr | crcfeed => rfl

/-- A command other than the engine's neither reads nor writes ACC: run with another ACC it does the same and keeps
that ACC (spec/10_state.md R29). -/
theorem execState_withAcc (hclr : i ≠ .crcclr) (hfeed : ∀ b, i ≠ .crcfeed b) (x : Byte) :
    execState p i { s with acc := x } = { execState p i s with acc := x } := by
  cases i with
  | crcclr => exact absurd rfl hclr
  | crcfeed b => exact absurd rfl (hfeed b)
  | dec => exact decodeRx_withAcc p s x
  | rxwr idx b =>
    dsimp only [execState]
    split <;> rfl
  | nop | enc => rfl

/-- ACC is CRCCLR's and CRCFEED's alone. -/
theorem execState_acc (hclr : i ≠ .crcclr) (hfeed : ∀ b, i ≠ .crcfeed b) : (execState p i s).acc = s.acc :=
  (congrArg State.acc (execState_withAcc p s hclr hfeed s.acc) :)

/-- No well-formed command writes ILL (spec/10_state.md R26). -/
theorem execState_ill (h : i.wf = true) : (execState p i s).ill = s.ill := by
  cases i with
  | rxwr idx b =>
    rw [execState, if_pos (of_decide_eq_true h)]
    rfl
  | dec => exact decodeRx_ill p s
  | nop | enc | crcclr | crcfeed => rfl

/-- No command writes the port or the bytes read. -/
theorem execState_keepsPortAndReads (i : Instr) :
    (execState p i s).port = s.port ∧ (execState p i s).reads = s.reads := by
  cases i with
  | dec => exact ⟨decodeRx_port p s, decodeRx_reads p s⟩
  | rxwr idx b =>
    rw [execState_rxwr_frame]
    exact ⟨rfl, rfl⟩
  | nop | enc | crcclr | crcfeed => exact ⟨rfl, rfl⟩

/-- TXV after a command: set by ENC, else as before (spec/10_state.md R25). -/
theorem execState_txv_iff (i : Instr) :
    (execState p i s).txv = true ↔ s.txv = true ∨ ∃ ls rs ld rd, i = .enc ls rs ld rd := by
  by_cases henc : ∃ ls rs ld rd, i = .enc ls rs ld rd
  · obtain ⟨ls, rs, ld, rd, rfl⟩ := henc
    exact ⟨fun _ => .inr ⟨ls, rs, ld, rd, rfl⟩, fun _ => rfl⟩
  · have hkeep := (execState_keepsEncoderElements p s fun ls rs ld rd h => henc ⟨ls, rs, ld, rd, h⟩).2
    rw [hkeep]
    exact (or_iff_left henc).symm

end

/-! ### What a host action can be -/

/-- A word decodes to well-formed commands only: the decoder checks the index of RXWR (spec/30_encoding.md R77). -/
theorem decode_wf {w : Word} {i : Instr} (h : decode w = .instr i) : i.wf = true := by
  unfold decode at h
  split_ifs at h with _ _ _ _ _ hrxwr <;> cases h
  · rfl
  · rfl
  · rfl
  · rfl
  · rfl
  · obtain ⟨-, -, hidx⟩ := hrxwr
    exact decide_eq_true hidx

/-- An action is a well-formed command, an ill-formed one, a read or the reset event; what each does. -/
theorem perform_cases (p : Params) (a : HostAction) (s : State) :
    (∃ i, i.wf = true ∧ commandOf a = some i ∧ isIllFormed a = false ∧ perform p a s = execState p i s) ∨
    (commandOf a = none ∧ isIllFormed a = true ∧ perform p a s = recordIll s) ∨
    (∃ addr, a = .read addr ∧ perform p a s = hostRead p addr s) ∨
    (a = .reset ∧ perform p a s = resetEvent p s) := by
  cases a with
  | command w =>
    cases hdecode : decode w with
    | instr i =>
      exact .inl ⟨i, decode_wf hdecode, by simp [commandOf, hdecode], by simp [isIllFormed, hdecode],
        by simp [perform, hdecode]⟩
    | illegal _ =>
      exact .inr (.inl ⟨by simp [commandOf, hdecode], by simp [isIllFormed, hdecode], by simp [perform, hdecode]⟩)
  | read addr => exact .inr (.inr (.inl ⟨addr, rfl, rfl⟩))
  | reset => exact .inr (.inr (.inr ⟨rfl, rfl⟩))

section
variable (p : Params) {a : HostAction} (s : State)

/-- ILL after an action other than a reset: as before, or set by an ill-formed command (spec/10_state.md R26). -/
theorem perform_ill (ha : a ≠ .reset) : (perform p a s).ill = (s.ill || isIllFormed a) := by
  obtain ⟨i, hwf, -, hill, heq⟩ | ⟨-, hill, heq⟩ | ⟨addr, rfl, heq⟩ | ⟨hreset, -⟩ := perform_cases p a s
  · rw [heq, hill, execState_ill p s hwf, Bool.or_false]
  · rw [heq, hill, Bool.or_true, recordIll_ill]
  · exact (Bool.or_false _).symm
  · exact absurd hreset ha

/-- TXV after an action other than a reset: as before, or set by ENC (spec/10_state.md R25). -/
theorem perform_txv_iff (ha : a ≠ .reset) :
    (perform p a s).txv = true ↔
      s.txv = true ∨ ∃ ls rs ld rd, commandOf a = some (.enc ls rs ld rd) := by
  obtain ⟨i, -, hcmd, -, heq⟩ | ⟨hcmd, -, heq⟩ | ⟨addr, rfl, heq⟩ | ⟨hreset, -⟩ := perform_cases p a s
  · simp [heq, hcmd, execState_txv_iff]
  · simp [heq, hcmd]
  · simp [heq, hostRead, commandOf]
  · exact absurd hreset ha

/-- A DEC of a valid frame accepts it. -/
theorem perform_of_validDec (hcmd : commandOf a = some .dec) (hvalid : frameValid p s.rx = true) :
    perform p a s = acceptFrame p s.rx s := by
  obtain ⟨hp, hc⟩ := (frameValid_iff p s.rx).1 hvalid
  obtain ⟨i, -, hi, -, heq⟩ | ⟨hi, -, -⟩ | ⟨addr, rfl, -⟩ | ⟨rfl, -⟩ := perform_cases p a s
  · obtain rfl : i = .dec := Option.some.inj (hi.symm.trans hcmd)
    exact heq.trans (decodeRx_of_valid hp hc)
  · cases hi.symm.trans hcmd
  · cases hcmd
  · cases hcmd

/-- An action that is neither a reset nor a DEC of a valid frame leaves SINK, the wheels, VF and PERR. -/
theorem perform_keepsOdometry (ha : a ≠ .reset)
    (hdec : ¬ (commandOf a = some .dec ∧ frameValid p s.rx = true)) :
    (perform p a s).sink = s.sink ∧ (perform p a s).left = s.left ∧ (perform p a s).right = s.right ∧
      (perform p a s).vf = s.vf ∧ (perform p a s).perr = s.perr := by
  obtain ⟨i, -, hcmd, -, heq⟩ | ⟨-, -, heq⟩ | ⟨addr, rfl, -⟩ | ⟨hreset, -⟩ := perform_cases p a s
  · rw [heq]
    by_cases hi : i = .dec
    · subst hi
      obtain ⟨r, hr⟩ := decodeRx_of_invalid fun hvalid => hdec ⟨hcmd, hvalid⟩
      rw [execState, hr]
      exact ⟨rfl, rfl, rfl, rfl, rfl⟩
    · obtain ⟨hvf, -, hperr, hleft, hright, hsink⟩ := execState_keepsDecoderElements p s hi
      exact ⟨hsink, hleft, hright, hvf, hperr⟩
  · rw [heq]
    exact ⟨rfl, rfl, rfl, rfl, rfl⟩
  · exact ⟨rfl, rfl, rfl, rfl, rfl⟩
  · exact absurd hreset ha

end

/-! ### STATUS and ACC in the read space -/

/-- The number two bit strings make, the upper one first. -/
theorem append_toNat {m n : Nat} (hi : BitVec m) (lo : BitVec n) :
    (hi ++ lo).toNat = 2 ^ n * hi.toNat + lo.toNat := by
  rw [BitVec.toNat_append, ← Nat.shiftLeft_add_eq_or_of_lt lo.isLt, Nat.shiftLeft_eq, Nat.mul_comm]

/-- STATUS as the weighted sum of its flags (spec/10_state.md R28). -/
theorem statusByte_toNat (s : State) :
    (statusByte s).toNat =
      16 * s.ill.toNat + 8 * s.perr.toNat + 4 * s.txv.toNat + (fstatCode s.fstat).toNat := by
  rw [statusByte, BitVec.toNat_setWidth_of_le (by decide)]
  simp only [append_toNat, BitVec.toNat_ofBool]
  omega

/-- STATUS reads at 0x3C (spec/20_memory.md R51). -/
theorem readWith_status (p : Params) (s : State) : readWith p 0x3C#8 s = statusByte s := by
  simp [readWith, readMap, windowByte]

/-- No address but that of CRCOUT shows ACC: the window at 0x3D is the only one that holds it. -/
theorem readWith_withAcc (p : Params) (s : State) (x : Byte) {a : Byte} (ha : a ≠ 0x3D#8) :
    readWith p a { s with acc := x } = readWith p a s := by
  have hout (c : Byte) : windowByte a.toNat { base := 0x3D, bytes := [c] } = .none := by
    have hne : a.toNat ≠ 0x3D := fun h => ha (BitVec.eq_of_toNat_eq h)
    exact windowByte_outside (by simp only [List.length_singleton]; omega)
  simp only [readWith, readMap, findWindow_cons, hout]
  rfl

end Sys2Proof.Machine
end

section
/-! SUPPORT. The statements about the state (spec/10_state.md), settled. -/

namespace Sys2Proof.Machine

/-- Settles O21. -/
theorem onlyTheEngineSeesAcc : Obligations.OnlyTheEngineSeesAcc := by
  refine ⟨fun i s t x hclr hfeed hexec => ?_, fun s x a ha => readWith_withAcc blockParams s x ha,
    fun s => readWith_crcOut blockParams s⟩
  rw [exec_eq] at hexec
  cases hexec
  refine ⟨execState_acc blockParams s hclr hfeed, ?_⟩
  rw [exec_eq, execState_withAcc blockParams s hclr hfeed]

/-- Settles O42, element by element. -/
theorem eachElementHasItsWriter : Obligations.EachElementHasItsWriter := by
  intro i s t hexec
  rw [exec_eq] at hexec
  cases hexec
  exact ⟨execState_keepsDecoderElements blockParams s, execState_keepsEncoderElements blockParams s,
    execState_rx blockParams s, execState_acc blockParams s, execState_ill blockParams s,
    execState_keepsPortAndReads blockParams s i⟩

/-- Settles O43. -/
theorem illIsStickyUntilReset : Obligations.IllIsStickyUntilReset := by
  intro s t a rest hport hstep
  rw [step_cons hport] at hstep
  cases hstep
  refine ⟨fun ha => ha ▸ rfl, fun ha => ?_⟩
  rw [perform_ill blockParams _ ha, Bool.or_eq_true]

/-- Settles O44. -/
theorem txvIsStickyUntilReset : Obligations.TxvIsStickyUntilReset := by
  intro s t a rest hport hstep
  rw [step_cons hport] at hstep
  cases hstep
  exact ⟨fun ha => ha ▸ rfl, perform_txv_iff blockParams _⟩

/-- Settles O45: accepting a frame emits the event of the wheels it stores, and no other action reaches SINK. -/
theorem onlyAValidDecMovesOdometryAndSink : Obligations.OnlyAValidDecMovesOdometryAndSink := by
  intro s t a rest hport ha hstep
  rw [step_cons hport] at hstep
  cases hstep
  refine ⟨fun ⟨hcmd, hvalid⟩ => ?_, perform_keepsOdometry blockParams { s with port := rest } ha⟩
  rw [perform_of_validDec blockParams { s with port := rest } hcmd hvalid]
  rfl

/-- Settles O46, by induction on the actions: the first one's effect on ILL, then the rest from the state after it. -/
theorem cleanRunHadNoIllFormedCommand : Obligations.CleanRunHadNoIllFormedCommand := by
  intro acts
  induction acts with
  | nil => exact fun s _ => ⟨{ s with port := [] }, rfl, by simp⟩
  | cons a acts ih =>
    intro s hacts
    obtain ⟨ha, hrest⟩ := List.forall_mem_cons.1 hacts
    obtain ⟨t, hrun, hill⟩ := ih (perform blockParams a s) hrest
    refine ⟨t, (run_cons a acts acts.length s).trans hrun, ?_⟩
    rw [hill, NoFaultRecorded, perform_ill blockParams s ha, Bool.or_eq_false_iff, List.forall_mem_cons, and_assoc]

/-- Settles O40. -/
theorem statusByteLayout : Obligations.StatusByteLayout := by
  intro s
  rw [readByte, readWith_status, statusByte_toNat]
  cases s.fstat <;> rfl

/-- Settles O47: the modelled block's reset state is that of its parameters. -/
theorem registerInvAtReset : Obligations.RegisterInvAtReset := ⟨inv_resetWith blockParams, inv_resetWith⟩

end Sys2Proof.Machine
end

section
/-! SUPPORT. The read space of every block (spec/20_memory.md R51 to R54): its windows lie in address order without
overlap, so each answers for its own addresses and the addresses between them read 0. -/

namespace Sys2Proof.Machine

/-- One window ends at or before the other's first address. -/
def Window.Before (win win' : Window) : Prop := win.base + win.bytes.length ≤ win'.base

/-- In windows in address order, the window an address lies in answers for it. -/
theorem findWindow_of_mem {wins : List Window} (horder : wins.Pairwise Window.Before) {win : Window}
    (hmem : win ∈ wins) {i : Nat} (hi : i < win.bytes.length) :
    wins.findSome? (windowByte (win.base + i)) = some win.bytes[i] := by
  induction wins with
  | nil => cases hmem
  | cons first rest ih =>
    obtain ⟨hfirst, hrest⟩ := List.pairwise_cons.1 horder
    rw [findWindow_cons]
    obtain rfl | hmem := List.mem_cons.1 hmem
    · rw [windowByte_inside (by omega) (by omega)]
      simp only [Nat.add_sub_cancel_left, Option.some_or]
    · have hbefore : first.base + first.bytes.length ≤ win.base := hfirst win hmem
      rw [windowByte_outside (.inr (by omega)), Option.none_or, ih hrest hmem]

section
variable (p : Params) {s : State}

/-- The windows of the read map stand in address order, and no two overlap. -/
theorem readMap_ordered (s : State) : (readMap p s).Pairwise Window.Before := by
  simp [readMap, Window.Before]

/-- An address in a window of the map reads as the window's byte. -/
theorem readWith_window {win : Window} (hmem : win ∈ readMap p s) {a : Byte} {i : Nat} (hi : i < win.bytes.length)
    (ha : a.toNat = win.base + i) : readWith p a s = win.bytes[i] := by
  rw [readWith, ha, findWindow_of_mem (readMap_ordered p s) hmem hi, Option.getD_some]

/-- An address in the window of a byte buffer reads as the buffer's byte. -/
theorem readWith_vector {base n : Nat} {v : Vector Byte n}
    (hmem : { base := base, bytes := v.toList } ∈ readMap p s) (hfit : base + n ≤ 256) (i : Fin n) :
    readWith p (BitVec.ofNat 8 (base + i.val)) s = v[i] := by
  have ha : (BitVec.ofNat 8 (base + i.val)).toNat = base + i.val := Nat.mod_eq_of_lt (by omega)
  exact (readWith_window p hmem (by simp) ha).trans (Vector.getElem_toList _)

/-- The address of a one-byte register reads as the register. -/
theorem readWith_byte {b a : Byte} (hmem : { base := a.toNat, bytes := [b] } ∈ readMap p s) : readWith p a s = b :=
  readWith_window p hmem (i := 0) Nat.one_pos rfl

/-- The k-th address of a little-endian register reads as its bits from 8 k up. -/
theorem readWith_leBytes {base n w : Nat} {v : BitVec w} (hmem : { base := base, bytes := leBytes n v } ∈ readMap p s)
    {a : Byte} {k : Nat} (hk : k < n) (ha : a.toNat = base + k) : readWith p a s = v.extractLsb' (8 * k) 8 := by
  rw [readWith_window p hmem (by simpa using hk) ha]
  simp [leBytes]

/-- The two addresses of a 16-bit register make it up, the byte at the higher address on top. -/
theorem readWith_register16 {a0 a1 : Byte} {v : BitVec 16}
    (hmem : { base := a0.toNat, bytes := leBytes 2 v } ∈ readMap p s) (h1 : a1.toNat = a0.toNat + 1) :
    readWith p a1 s ++ readWith p a0 s = v := by
  rw [readWith_leBytes p hmem (k := 0) (by decide) rfl, readWith_leBytes p hmem (k := 1) (by decide) h1]
  exact bytes16 v

/-- The four addresses of a 32-bit register make it up, the byte at the highest address on top. -/
theorem readWith_register32 {a0 a1 a2 a3 : Byte} {v : BitVec 32}
    (hmem : { base := a0.toNat, bytes := leBytes 4 v } ∈ readMap p s) (h1 : a1.toNat = a0.toNat + 1)
    (h2 : a2.toNat = a0.toNat + 2) (h3 : a3.toNat = a0.toNat + 3) :
    readWith p a3 s ++ readWith p a2 s ++ readWith p a1 s ++ readWith p a0 s = v := by
  rw [readWith_leBytes p hmem (k := 0) (by decide) rfl, readWith_leBytes p hmem (k := 1) (by decide) h1,
    readWith_leBytes p hmem (k := 2) (by decide) h2, readWith_leBytes p hmem (k := 3) (by decide) h3]
  exact bytes32 v

/-- An address in none of the map's windows reads 0 (spec/20_memory.md R53). -/
theorem readWith_unmapped {a : Byte}
    (hout : ∀ win ∈ readMap p s, a.toNat < win.base ∨ win.base + win.bytes.length ≤ a.toNat) :
    readWith p a s = 0x00#8 := by
  have hnone : (readMap p s).findSome? (windowByte a.toNat) = .none :=
    List.findSome?_eq_none_iff.2 fun win hwin => windowByte_outside (hout win hwin)
  rw [readWith, hnone, Option.getD_none]

end

end Sys2Proof.Machine
end

section
/-! SUPPORT. A run of the block as its actions in issue order (spec/20_memory.md R60). -/

namespace Sys2Proof.Machine

/-- The state after a list of host actions, performed in issue order. -/
def performAll (p : Params) (acts : List HostAction) (s : State) : State :=
  acts.foldl (fun t a => perform p a t) s

/-- A run of as many steps as there are first actions performs exactly those, and leaves the later ones waiting. -/
theorem run_append (xs ys : List HostAction) (s : State) :
    Sys2Proof.core.run xs.length { s with port := xs ++ ys } =
      .next { performAll blockParams xs s with port := ys } := by
  induction xs generalizing s with
  | nil => rfl
  | cons a xs ih => exact (run_cons a (xs ++ ys) xs.length s).trans (ih (perform blockParams a s))

end Sys2Proof.Machine
end

section
/-! SUPPORT. The statements about memory, byte order and ordering (spec/20_memory.md), settled. -/

namespace Sys2Proof.Machine

/-- Settles O13: with or without later actions waiting, the run performs the same actions. -/
theorem laterActionsDoNotAffectEarlierOnes : Obligations.LaterActionsDoNotAffectEarlierOnes := by
  intro xs ys s
  have halone := run_append xs [] s
  rw [List.append_nil] at halone
  exact ⟨{ performAll blockParams xs s with port := ys }, run_append xs ys s, rfl, halone⟩

/-- Settles O41: each register by its window of the read map, and the unmapped ranges by lying between the windows. -/
theorem readMapIsAsTabulated : Obligations.ReadMapIsAsTabulated := by
  intro s
  simp only [readByte]
  refine ⟨fun i => ?tx, ?rx, ?vf, readWith_status _ s, readWith_crcOut _ s, ?dirL, ?dirR, ?spdL, ?spdR, ?rawL, ?rawR,
    ?tckL, ?tckR, fun a ha => ?unmapped⟩
  case tx =>
    have htx := readWith_vector blockParams (s := s) (base := 0x00) (v := s.tx) (by simp [readMap]) (by decide) i
    rwa [Nat.zero_add] at htx
  case rx | vf => exact readWith_vector _ (by simp [readMap]) (by decide)
  case dirL | dirR => exact readWith_byte _ (by simp [readMap])
  case spdL | spdR | rawL | rawR => exact readWith_register16 _ (by simp [readMap]) rfl
  case tckL | tckR => exact readWith_register32 _ (by simp [readMap]) rfl rfl rfl
  case unmapped =>
    refine readWith_unmapped _ ?_
    simp only [readMap, List.forall_mem_cons, Vector.length_toList, leBytes_length, List.length_singleton,
      List.not_mem_nil, IsEmpty.forall_iff, implies_true, and_true]
    omega

/-- Settles O9: taking the action from the port leaves what the address reads. -/
theorem readChangesOnlyTheObservation : Obligations.ReadChangesOnlyTheObservation := by
  intro s a rest hport
  rw [step_cons hport, perform, hostRead, readWith_withPort]
  rfl

/-- Settles O35. -/
theorem tickCounterByteOrder : Obligations.TickCounterByteOrder :=
  ⟨fun b0 b1 => ⟨(raw16_toNat true b0 b1).trans (Nat.add_comm ..), raw16_toNat false b0 b1⟩,
    fun _ _ => ⟨rfl, rfl⟩, rfl⟩

end Sys2Proof.Machine
end

section
/-! SUPPORT. Command words field by field (spec/30_encoding.md R71 to R76): the fields of a word as numbers, the row
of each command as a condition on the fields, and decoder and encoder by that condition. -/

namespace Sys2Proof

/-! ### The fields as numbers -/

section
variable (w : Word)

/-- The opcode is bits 7..0 (R71). -/
theorem opField_toNat : (opField w).toNat = w.toNat % 2 ^ 8 := by
  rw [opField, BitVec.extractLsb'_toNat, Nat.shiftRight_zero]

/-- The first operand byte is bits 15..8 (R71). -/
theorem byteField_toNat : (byteField w).toNat = w.toNat / 2 ^ 8 % 2 ^ 8 := by
  rw [byteField, BitVec.extractLsb'_toNat, Nat.shiftRight_eq_div_pow]

/-- The right speed is bits 23..16 (R71). -/
theorem rsField_toNat : (rsField w).toNat = w.toNat / 2 ^ 16 % 2 ^ 8 := by
  rw [rsField, BitVec.extractLsb'_toNat, Nat.shiftRight_eq_div_pow]

/-- The RX index is bits 20..16 (R71). -/
theorem idxField_toNat : (idxField w).toNat = w.toNat / 2 ^ 16 % 2 ^ 5 := by
  rw [idxField, BitVec.extractLsb'_toNat, Nat.shiftRight_eq_div_pow]

/-- The left direction is bit 24 (R71). -/
theorem ldField_toNat : (ldField w).toNat = w.toNat / 2 ^ 24 % 2 :=
  Nat.toNat_testBit w.toNat 24

/-- The right direction is bit 25 (R71). -/
theorem rdField_toNat : (rdField w).toNat = w.toNat / 2 ^ 25 % 2 :=
  Nat.toNat_testBit w.toNat 25

end

/-! ### The words of the commands with operands, as numbers -/

/-- A field of a command word set above the bits already there: it counts with the weight of its lowest bit. -/
theorem or_field_toNat {x : Word} {m n : Nat} (k : Nat) (v : BitVec n) (hx : x.toNat = m) (hm : m < 2 ^ k)
    (hfit : k + n ≤ 32) : (x ||| (v.setWidth 32 <<< k)).toNat = m + 2 ^ k * v.toNat := by
  have hv : 2 ^ k * v.toNat < 2 ^ 32 := calc
    2 ^ k * v.toNat < 2 ^ k * 2 ^ n := Nat.mul_lt_mul_of_pos_left v.isLt (Nat.two_pow_pos k)
    _ = 2 ^ (k + n) := (Nat.pow_add ..).symm
    _ ≤ 2 ^ 32 := Nat.pow_le_pow_right (by decide) hfit
  rw [BitVec.toNat_or, BitVec.toNat_shiftLeft, BitVec.toNat_setWidth_of_le (by omega), Nat.shiftLeft_eq, Nat.mul_comm,
    Nat.mod_eq_of_lt hv, hx, Nat.or_comm, ← Nat.two_pow_add_eq_or_of_lt hm, Nat.add_comm]

/-- The word of ENC (R74). -/
theorem encode_enc_toNat (ls rs : Byte) (ld rd : Bool) :
    (encode (.enc ls rs ld rd)).toNat =
      0x01 + 2 ^ 8 * ls.toNat + 2 ^ 16 * rs.toNat + 2 ^ 24 * ld.toNat + 2 ^ 25 * rd.toNat := by
  have hls := or_field_toNat (x := 0x01#32) (m := 0x01) 8 ls rfl (by decide) (by decide)
  have hrs := or_field_toNat 16 rs hls (by omega) (by decide)
  have hld := or_field_toNat 24 (BitVec.ofBool ld) hrs (by omega) (by decide)
  have hrd := or_field_toNat 25 (BitVec.ofBool rd) hld (by omega) (by decide)
  rw [BitVec.toNat_ofBool, BitVec.toNat_ofBool] at hrd
  exact hrd

/-- The word of CRCFEED (R74). -/
theorem encode_crcfeed_toNat (b : Byte) : (encode (.crcfeed b)).toNat = 0x04 + 2 ^ 8 * b.toNat :=
  or_field_toNat 8 b rfl (by decide) (by decide)

/-- The word of RXWR (R74). -/
theorem encode_rxwr_toNat (idx : BitVec 5) (b : Byte) :
    (encode (.rxwr idx b)).toNat = 0x05 + 2 ^ 8 * b.toNat + 2 ^ 16 * idx.toNat := by
  have hb := or_field_toNat (x := 0x05#32) (m := 0x05) 8 b rfl (by decide) (by decide)
  exact or_field_toNat 16 idx hb (by omega) (by decide)

/-! ### The row of a command -/

/-- A word lies in the row of a command and holds its operands: the row's opcode and zeros where R71 marks them, and
the operands in their fields (R71, R73). The index of RXWR is any of 5 bits. -/
def Instr.HeldBy (w : Word) : Instr → Prop
  | .nop => w = 0x00000000#32
  | .enc ls rs ld rd =>
    (opField w = 0x01#8 ∧ w.extractLsb' 26 6 = 0#6) ∧
      byteField w = ls ∧ rsField w = rs ∧ ldField w = ld ∧ rdField w = rd
  | .dec => w = 0x00000002#32
  | .crcclr => w = 0x00000003#32
  | .crcfeed b => (opField w = 0x04#8 ∧ w.extractLsb' 16 16 = 0#16) ∧ byteField w = b
  | .rxwr idx b => (opField w = 0x05#8 ∧ w.extractLsb' 21 11 = 0#11) ∧ idxField w = idx ∧ byteField w = b

/-- Two bits are equal when they count the same. -/
theorem bool_eq_iff_toNat_eq (a b : Bool) : a = b ↔ a.toNat = b.toNat := by
  revert a b
  decide

/-- The word of a command is the one that holds its fields: each condition is one digit of the number. -/
theorem encode_eq_iff (i : Instr) (w : Word) : encode i = w ↔ i.HeldBy w := by
  have hw := w.isLt
  cases i with
  | nop | dec | crcclr => exact eq_comm
  | enc ls rs ld rd =>
    have hld := ld.toNat_lt
    have hrd := rd.toNat_lt
    simp only [Instr.HeldBy, ← BitVec.toNat_inj, bool_eq_iff_toNat_eq, encode_enc_toNat, opField_toNat,
      byteField_toNat, rsField_toNat, ldField_toNat, rdField_toNat, BitVec.extractLsb'_toNat,
      Nat.shiftRight_eq_div_pow, BitVec.toNat_ofNat]
    omega
  | crcfeed | rxwr =>
    simp only [Instr.HeldBy, ← BitVec.toNat_inj, encode_crcfeed_toNat, encode_rxwr_toNat, opField_toNat,
      byteField_toNat, idxField_toNat, BitVec.extractLsb'_toNat, Nat.shiftRight_eq_div_pow, BitVec.toNat_ofNat]
    omega

/-- A word decodes to a command exactly when it holds the command's fields and the command is well-formed (R76). -/
theorem decode_eq_instr_iff (w : Word) (i : Instr) : decode w = .instr i ↔ i.wf = true ∧ i.HeldBy w := by
  constructor
  · intro h
    refine ⟨Machine.decode_wf h, ?_⟩
    unfold decode at h
    split_ifs at h with hnop henc hdec hclr hfeed hrxwr <;> cases h
    · exact hnop
    · exact ⟨henc, rfl, rfl, rfl, rfl⟩
    · exact hdec
    · exact hclr
    · exact ⟨hfeed, rfl⟩
    · obtain ⟨hop, hzero, -⟩ := hrxwr
      exact ⟨⟨hop, hzero⟩, rfl, rfl⟩
  · rintro ⟨hwf, hfields⟩
    have hhigh (hop : 0x04#8 ≤ opField w) : w ≠ 0x00000000#32 ∧ w ≠ 0x00000002#32 ∧ w ≠ 0x00000003#32 := by
      refine ⟨?_, ?_, ?_⟩ <;> rintro rfl <;> exact absurd hop (by decide)
    cases i with
    | nop | dec | crcclr => exact hfields ▸ rfl
    | enc ls rs ld rd =>
      obtain ⟨⟨hop, hzero⟩, rfl, rfl, rfl, rfl⟩ := hfields
      have hnop : w ≠ 0x00000000#32 := by
        rintro rfl
        exact absurd hop (by decide)
      simp [decode, hop, hzero, hnop]
    | crcfeed b =>
      obtain ⟨⟨hop, hzero⟩, rfl⟩ := hfields
      simp [decode, hop, hzero, hhigh]
    | rxwr idx b =>
      obtain ⟨⟨hop, hzero⟩, rfl, rfl⟩ := hfields
      have hidx := of_decide_eq_true hwf
      simp [decode, hop, hzero, hhigh, hidx]

/-! ### Match and mask -/

/-- Bit strings of the same two widths are equal part by part. -/
theorem bitVec_append_inj {m n : Nat} {x x' : BitVec m} {y y' : BitVec n} :
    x ++ y = x' ++ y' ↔ x = x' ∧ y = y' := by
  constructor
  · intro h
    have hx := congrArg (BitVec.extractLsb' n m) h
    have hy := congrArg (BitVec.extractLsb' 0 n) h
    rw [BitVec.extractLsb'_append_eq_left, BitVec.extractLsb'_append_eq_left] at hx
    rw [BitVec.extractLsb'_append_eq_right, BitVec.extractLsb'_append_eq_right] at hy
    exact ⟨hx, hy⟩
  · rintro ⟨rfl, rfl⟩
    rfl

/-- A mask with ones over the highest and the lowest field of a word: the masked word is a match within the lowest
field exactly when that field is the match and the highest is zero. -/
theorem mask_eq_iff {a b c : Nat} (w : BitVec (a + b + c)) (v : BitVec c) :
    w &&& (BitVec.allOnes a ++ 0#b ++ BitVec.allOnes c) = 0#a ++ 0#b ++ v ↔
      w.extractLsb' 0 c = v ∧ w.extractLsb' (c + b) a = 0#a := by
  have hw : w.extractLsb' (c + b) a ++ w.extractLsb' c b ++ w.extractLsb' 0 c = w := by
    rw [BitVec.extractLsb'_append_extractLsb'_eq_extractLsb' rfl, BitVec.extractLsb'_append_extractLsb']
  generalize w.extractLsb' (c + b) a = high, w.extractLsb' c b = mid, w.extractLsb' 0 c = low at hw
  rw [← hw, BitVec.and_append, BitVec.and_append, bitVec_append_inj, bitVec_append_inj, BitVec.and_allOnes,
    BitVec.and_zero, BitVec.and_allOnes]
  simp [and_comm]

/-- The row of ENC by its mask and match (R73). -/
theorem enc_mask_iff (w : Word) :
    w &&& 0xFC0000FF#32 = 0x00000001#32 ↔ opField w = 0x01#8 ∧ w.extractLsb' 26 6 = 0#6 :=
  mask_eq_iff (a := 6) (b := 18) w 0x01#8

/-- The row of CRCFEED by its mask and match (R73). -/
theorem crcfeed_mask_iff (w : Word) :
    w &&& 0xFFFF00FF#32 = 0x00000004#32 ↔ opField w = 0x04#8 ∧ w.extractLsb' 16 16 = 0#16 :=
  mask_eq_iff (a := 16) (b := 8) w 0x04#8

/-- The row of RXWR by its mask and match (R73). -/
theorem rxwr_mask_iff (w : Word) :
    w &&& 0xFFE000FF#32 = 0x00000005#32 ↔ opField w = 0x05#8 ∧ w.extractLsb' 21 11 = 0#11 :=
  mask_eq_iff (a := 11) (b := 13) w 0x05#8

/-- The masked opcode counts as the opcode field. -/
theorem opField_mask_toNat (w : Word) : (w &&& 0xFF#32).toNat = (opField w).toNat := by
  rw [opField_toNat]
  exact Nat.and_two_pow_sub_one_eq_mod w.toNat 8

/-- The shifted and masked index counts as the index field. -/
theorem idxField_mask_toNat (w : Word) : ((w >>> 16) &&& 0x1F#32).toNat = (idxField w).toNat := by
  rw [idxField_toNat, ← Nat.shiftRight_eq_div_pow]
  exact Nat.and_two_pow_sub_one_eq_mod (w.toNat >>> 16) 5

/-- The opcode of a command is below 6 (R73). -/
theorem opField_encode_lt (i : Instr) : (opField (encode i)).toNat < 6 := by
  cases i with
  | nop | dec | crcclr => decide
  | enc ls rs ld rd => exact Laws.EncodedOpcode.enc ls rs ld rd ▸ (by decide : (0x01#8).toNat < 6)
  | crcfeed b => exact Laws.EncodedOpcode.crcfeed b ▸ (by decide : (0x04#8).toNat < 6)
  | rxwr idx b => exact Laws.EncodedOpcode.rxwr idx b ▸ (by decide : (0x05#8).toNat < 6)

/-- A word with an opcode that is not listed is ill-formed: it is no command's encoding (R77). -/
theorem decode_of_reservedOpcode {w : Word} (hop : 6 ≤ (opField w).toNat) : ∃ why, decode w = .illegal why := by
  cases hdecode : decode w with
  | illegal why => exact ⟨why, rfl⟩
  | instr i =>
    obtain ⟨-, hfields⟩ := (decode_eq_instr_iff w i).1 hdecode
    have hlt := opField_encode_lt i
    rw [(encode_eq_iff i w).2 hfields] at hlt
    omega

end Sys2Proof
end

section
/-! SUPPORT. The loading of RX byte by byte, and what the assembler answers on operands written as numbers
(spec/30_encoding.md R83 and R84). -/

namespace Sys2Proof.Machine

/-! ### RXLOAD -/

/-- One command after another runs from the state the commands before it left. -/
theorem execAll_append {is : List Instr} {s t : State} (h : execAll is s = .next t) (js : List Instr) :
    execAll (is ++ js) s = execAll js t := by
  induction is generalizing s with
  | nil => cases h; rfl
  | cons i is ih =>
    simp only [List.cons_append, execAll, exec_eq] at h ⊢
    exact ih h

/-- A single command runs as itself. -/
theorem execAll_singleton (i : Instr) (s : State) : execAll [i] s = exec i s := by
  simp only [execAll, exec_eq]

/-- RXWR at an index of RX writes that byte of it (spec/44_buffer_and_control.md R191). -/
theorem exec_rxwr {idx : BitVec 5} (hidx : idx.toNat < 20) (b : Byte) (s : State) :
    exec (.rxwr idx b) s = .next { s with rx := s.rx.setIfInBounds idx.toNat b } := by
  rw [exec_eq, execState, if_pos hidx]
  rfl

/-- RXWR at an index outside RX records an ill-formed command (log entry 11). -/
theorem exec_rxwr_outside {idx : BitVec 5} (hidx : 20 ≤ idx.toNat) (b : Byte) (s : State) :
    exec (.rxwr idx b) s = .next { s with ill := true } := by
  rw [exec_eq, execState, if_neg (by omega)]
  rfl

/-- RXLOAD is one RXWR for each of its bytes. -/
theorem pseudoRxload_length (bytes : TelemetryFrame) : (pseudoRxload bytes).length = 20 := by
  simp [pseudoRxload]

/-- The commands of RXLOAD stand in index order. -/
theorem pseudoRxload_getElem? (bytes : TelemetryFrame) (i : Fin 20) :
    (pseudoRxload bytes)[i.val]? = some (.rxwr (BitVec.ofNat 5 i.val) bytes[i]) := by
  simp [pseudoRxload]

/-- RX with its first `k` bytes loaded and the others as before. -/
def loadedRx (bytes rx : TelemetryFrame) (k : Nat) : TelemetryFrame :=
  Vector.ofFn fun j => if j.val < k then bytes[j] else rx[j]

/-- A byte of the loaded RX. -/
theorem loadedRx_getElem (bytes rx : TelemetryFrame) (k : Nat) {j : Nat} (hj : j < 20) :
    (loadedRx bytes rx k)[j] = if j < k then bytes[j] else rx[j] := by
  rw [loadedRx, Vector.getElem_ofFn]
  rfl

/-- Loading no byte leaves RX. -/
theorem loadedRx_zero (bytes rx : TelemetryFrame) : loadedRx bytes rx 0 = rx := by
  ext j hj
  rw [loadedRx_getElem _ _ _ hj, if_neg (Nat.not_lt_zero j)]

/-- Loading all 20 bytes leaves nothing of RX. -/
theorem loadedRx_all (bytes rx : TelemetryFrame) : loadedRx bytes rx 20 = bytes := by
  ext j hj
  rw [loadedRx_getElem _ _ _ hj, if_pos hj]

/-- Writing the next byte loads one byte more. -/
theorem loadedRx_succ (bytes rx : TelemetryFrame) (k : Fin 20) :
    (loadedRx bytes rx k.val).setIfInBounds k.val bytes[k] = loadedRx bytes rx (k.val + 1) := by
  ext j hj
  rw [Vector.getElem_setIfInBounds, loadedRx_getElem _ _ _ hj, loadedRx_getElem _ _ _ hj]
  by_cases hkj : k.val = j
  · subst hkj
    rw [if_pos rfl, if_pos (Nat.lt_succ_self k.val)]
    rfl
  · have hlt : j < k.val + 1 ↔ j < k.val := by omega
    simp only [if_neg hkj, hlt]

/-- The first `k` commands of RXLOAD load the first `k` bytes and change nothing else, by induction on `k`. -/
theorem execAll_rxload_take (bytes : TelemetryFrame) (s : State) {k : Nat} (hk : k ≤ 20) :
    execAll ((pseudoRxload bytes).take k) s = .next { s with rx := loadedRx bytes s.rx k } := by
  induction k with
  | zero =>
    rw [loadedRx_zero]
    rfl
  | succ k ih =>
    have hidx : (BitVec.ofNat 5 k).toNat = k := Nat.mod_eq_of_lt (by omega)
    rw [List.take_add_one, pseudoRxload_getElem? bytes ⟨k, hk⟩, execAll_append (ih (by omega)), Option.toList_some,
      execAll_singleton, exec_rxwr (hidx.trans_lt hk), hidx, ← loadedRx_succ bytes s.rx ⟨k, hk⟩]

/-- RXLOAD leaves its bytes in RX and changes nothing else. -/
theorem execAll_rxload (bytes : TelemetryFrame) (s : State) :
    execAll (pseudoRxload bytes) s = .next { s with rx := bytes } := by
  have h := execAll_rxload_take bytes s (Nat.le_refl 20)
  rwa [List.take_of_length_le (pseudoRxload_length bytes).le, loadedRx_all] at h

/-! ### The assembler -/

/-- What follows a reader runs on the operand it reads, and a refusal stays one. -/
theorem bind_read {α β : Type} {c : Prop} [Decidable c] (a : α) (f : α → Option β) :
    ((if c then some a else none) >>= f) = if c then f a else none := by
  split <;> rfl

/-- A byte written as a number is 0 to 255, or refused. -/
theorem asmByte_number (n : Nat) : asmByte (.number n) = if n < 256 then some (BitVec.ofNat 8 n) else none := rfl

/-- An index written as a number is 0 to 19, or refused. -/
theorem asmIndex_number (n : Nat) : asmIndex (.number n) = if n < 20 then some (BitVec.ofNat 5 n) else none := rfl

/-- A direction written by its name is always read. -/
theorem asmDirection_named {x : AsmOperand × Bool} (hx : x ∈ [(.fwd, true), (.bwd, false)]) :
    asmDirection x.1 = if True then some x.2 else none := by
  fin_cases hx <;> rfl

/-- ENC with speeds written as numbers and directions that are each read under a condition: all four operands are
read, or the line is refused. -/
theorem assemble_enc {l r : AsmOperand} {hl hr : Prop} [Decidable hl] [Decidable hr] {ld rd : Bool} (m n : Nat)
    (hld : asmDirection l = if hl then some ld else none) (hrd : asmDirection r = if hr then some rd else none) :
    assemble .enc [.number m, .number n, l, r] =
      if m < 256 ∧ n < 256 ∧ hl ∧ hr then some [.enc (BitVec.ofNat 8 m) (BitVec.ofNat 8 n) ld rd] else none := by
  simp only [assemble, asmByte_number, hld, hrd, bind_read, ite_and]
  rfl

/-- Twenty numbers make a frame, or one of them is refused. -/
theorem asmFrame_numbers (ns : Vector Nat 20) :
    asmFrame (ns.toList.map .number) =
      if ∀ n ∈ ns.toList, n < 256 then some (ns.map (BitVec.ofNat 8)) else none := by
  rw [asmFrame, asmBytes_numbers, bind_read]
  obtain ⟨⟨l⟩, hsize⟩ := ns
  simp [show l.length = 20 from hsize, Vector.toList]

/-- Any other count of numbers makes no frame. -/
theorem asmFrame_wrongCount {ns : List Nat} (h : ns.length ≠ 20) : asmFrame (ns.map .number) = none := by
  rw [asmFrame, asmBytes_numbers, bind_read]
  simp [h]

end Sys2Proof.Machine
end

section
/-! SUPPORT. The statements about the encoding and the assembly notation (spec/30_encoding.md), settled. -/

namespace Sys2Proof.Machine

/-- Settles O2: a word that is the command's encoding holds its fields. -/
theorem decodeOfEncodeIsTheCommand : Obligations.DecodeOfEncodeIsTheCommand := by
  intro i hwf
  exact (decode_eq_instr_iff (encode i) i).2 ⟨hwf, (encode_eq_iff i (encode i)).1 rfl⟩

/-- Settles O3: a word that holds a command's fields is its encoding. -/
theorem encodeOfDecodeIsTheWord : Obligations.EncodeOfDecodeIsTheWord := by
  intro w i hdecode
  obtain ⟨hwf, hfields⟩ := (decode_eq_instr_iff w i).1 hdecode
  exact ⟨hwf, (encode_eq_iff i w).2 hfields⟩

/-- Settles O4, row by row. -/
theorem decoderFollowsMatchAndMask : Obligations.DecoderFollowsMatchAndMask := by
  intro w
  have hfull : w &&& 0xFFFFFFFF#32 = w := BitVec.and_allOnes
  rw [hfull, enc_mask_iff, crcfeed_mask_iff, rxwr_mask_iff, idxField_mask_toNat, opField_mask_toNat]
  refine ⟨?_, ?_, ?_, ?_, ?_, ?_, decode_of_reservedOpcode⟩
  all_goals simp [decode_eq_instr_iff, Instr.wf, Instr.HeldBy, and_comm]

/-- Settles O5. -/
theorem operandsAreTheFieldsUnchanged : Obligations.OperandsAreTheFieldsUnchanged := by
  intro w
  refine ⟨fun ls rs ld rd h => ?_, fun b h => ?_, fun idx b h => ?_⟩
  · obtain ⟨-, -, rfl, rfl, rfl, rfl⟩ := (decode_eq_instr_iff w _).1 h
    exact ⟨byteField_toNat w, rsField_toNat w, ldField_toNat w, rdField_toNat w⟩
  · obtain ⟨-, -, rfl⟩ := (decode_eq_instr_iff w _).1 h
    exact byteField_toNat w
  · obtain ⟨hwf, -, rfl, rfl⟩ := (decode_eq_instr_iff w _).1 h
    exact ⟨byteField_toNat w, idxField_toNat w, of_decide_eq_true hwf⟩

/-- Settles O50: RECV is RXLOAD, then DEC at the state it leaves. -/
theorem rxloadFillsRx : Obligations.RxloadFillsRx := by
  intro bytes s
  refine ⟨execAll_rxload bytes s, ?_⟩
  rw [pseudoRecv, execAll_append (execAll_rxload bytes s), execAll_singleton]

/-- Settles O51: each operand reader answers on numbers, and a line is refused where one of its readers refuses. -/
theorem assemblerNeverTruncates : Obligations.AssemblerNeverTruncates := by
  refine ⟨fun n => ?_, fun n => ?_, fun m n => ?_, fun m n l r => ?_, fun m n k x y hx hy => ⟨?_, ?_, ?_⟩,
    fun ns => ?_, fun ns => ⟨?_, ?_⟩, fun ns hlen => ⟨?_, ?_⟩⟩
  · simp only [assemble, asmByte_number, bind_read]
    rfl
  · simp only [assemble, asmByte_number, bind_read]
    rfl
  · simp only [assemble, asmByte_number, asmIndex_number, bind_read, ite_and]
    rfl
  · exact assemble_enc m n (asmDirection_number l) (asmDirection_number r)
  · simpa only [and_true] using assemble_enc m n (asmDirection_named hx) (asmDirection_named hy)
  · simpa only [and_true] using assemble_enc m n (asmDirection_number k) (asmDirection_named hy)
  · simpa only [true_and] using assemble_enc m n (asmDirection_named hx) (asmDirection_number k)
  · simp only [assemble, asmBytes_numbers, bind_read, pseudoCrc, List.map_map]
    rfl
  · simp only [assemble, asmFrame_numbers, bind_read]
    rfl
  · simp only [assemble, asmFrame_numbers, bind_read]
    rfl
  · simp only [assemble, asmFrame_wrongCount hlen]
    rfl
  · simp only [assemble, asmFrame_wrongCount hlen]
    rfl

/-- Settles O1, word by word. -/
theorem workedEncodingsDecode : Obligations.WorkedEncodingsDecode := by
  unfold Obligations.WorkedEncodingsDecode
  decide

/-- Settles O17. -/
theorem rxwrOutsideRxSetsOnlyIll : Obligations.RxwrOutsideRxSetsOnlyIll :=
  fun s _ b hidx => exec_rxwr_outside hidx b s

/-- Settles O49. -/
theorem pseudoInstructionsExpand : Obligations.PseudoInstructionsExpand :=
  ⟨rfl, fun _ => rfl, fun _ => rfl, fun _ => rfl,
    fun bytes => ⟨pseudoRxload_length bytes, pseudoRxload_getElem? bytes⟩⟩

end Sys2Proof.Machine
end

section
/-! SUPPORT. The checksum engine (spec/40_checksum.md R102 to R107): what one host action does to ACC, what a list of
them does; before that, the words of opcode 4 that are no CRCFEED. -/

namespace Sys2Proof

/-! ### Words that are no command -/

/-- A word that decodes to no command is ill-formed (R76). -/
theorem decode_illegal_of_forall_ne {w : Word} (h : ∀ i, decode w ≠ .instr i) : ∃ why, decode w = .illegal why := by
  cases hdecode : decode w with
  | instr i => exact absurd hdecode (h i)
  | illegal why => exact ⟨why, rfl⟩

/-- A word that decodes to a command carries the command's opcode (R73). -/
theorem opField_of_decode {w : Word} {i : Instr} (h : decode w = .instr i) :
    opField w = Laws.EncodedOpcode.opcode i := by
  obtain ⟨-, hfields⟩ := (decode_eq_instr_iff w i).1 h
  rw [← (encode_eq_iff i w).2 hfields]
  cases i with
  | nop | dec | crcclr => rfl
  | enc ls rs ld rd => exact Laws.EncodedOpcode.enc ls rs ld rd
  | crcfeed b => exact Laws.EncodedOpcode.crcfeed b
  | rxwr idx b => exact Laws.EncodedOpcode.rxwr idx b

/-- A masked opcode is the opcode field. -/
theorem opField_eq_of_mask {w : Word} {op : Byte} (h : w &&& 0xFF#32 = op.setWidth 32) : opField w = op := by
  apply BitVec.eq_of_toNat_eq
  rw [← opField_mask_toNat, h, BitVec.toNat_setWidth_of_le (by decide)]

/-- CRCFEED's word has no bit of 31..16 set (R71). -/
theorem highBits_of_decode_crcfeed {w : Word} {b : Byte} (h : decode w = .instr (.crcfeed b)) :
    w &&& 0xFFFF0000#32 = 0#32 := by
  obtain ⟨-, hrow, -⟩ := (decode_eq_instr_iff w _).1 h
  calc w &&& 0xFFFF0000#32
    _ = (w &&& 0xFFFF00FF#32) &&& 0xFFFF0000#32 := by rw [BitVec.and_assoc]; rfl
    _ = 0x00000004#32 &&& 0xFFFF0000#32 := by rw [(crcfeed_mask_iff w).2 hrow]
    _ = 0#32 := rfl

end Sys2Proof

namespace Sys2Proof.Machine

/-! ### ACC -/

section
variable (p : Params) {a : HostAction} (s : State)

/-- ACC after an action other than a reset and CRCCLR: one `CHK_STEP` for the byte the action feeds, or as before
(R103, spec/10_state.md R29). -/
theorem perform_acc (hreset : a ≠ .reset) (hclr : commandOf a ≠ some .crcclr) :
    (perform p a s).acc = (fedByte a).elim s.acc (p.chkStep s.acc) := by
  obtain ⟨i, -, hcmd, -, heq⟩ | ⟨hcmd, -, heq⟩ | ⟨addr, rfl, -⟩ | ⟨ha, -⟩ := perform_cases p a s
  · rw [heq, fedByte, hcmd]
    cases i with
    | crcclr => exact absurd hcmd hclr
    | crcfeed b => rfl
    | nop | enc | dec | rxwr => exact execState_acc p s nofun nofun
  · rw [heq, fedByte, hcmd]
    rfl
  · rfl
  · exact absurd ha hreset

/-- ACC after actions with no reset and no CRCCLR among them: the fold of `CHK_STEP` over the bytes they feed. -/
theorem performAll_acc {acts : List HostAction} (h : ∀ a ∈ acts, a ≠ .reset ∧ commandOf a ≠ some .crcclr) :
    (performAll p acts s).acc = (acts.filterMap fedByte).foldl p.chkStep s.acc := by
  induction acts generalizing s with
  | nil => rfl
  | cons a acts ih =>
    obtain ⟨⟨hreset, hclr⟩, hacts⟩ := List.forall_mem_cons.1 h
    have hrest : (performAll p (a :: acts) s).acc = _ := ih (perform p a s) hacts
    rw [hrest, perform_acc p s hreset hclr, List.filterMap_cons]
    cases fedByte a <;> rfl

end

/-- CRCFEEDs one after another fold `CHK_STEP` over their bytes and change nothing but ACC. -/
theorem execAll_crcfeeds (bytes : List Byte) (s : State) :
    execAll (bytes.map .crcfeed) s = .next { s with acc := bytes.foldl Config.chkStep s.acc } := by
  induction bytes generalizing s with
  | nil => rfl
  | cons b bytes ih => exact ih (feedAcc blockParams b s)

/-- The CRC pseudo-instruction leaves the fold over its bytes in ACC and changes nothing else (spec/30_encoding.md
R84). -/
theorem execAll_pseudoCrc (bytes : List Byte) (s : State) :
    execAll (pseudoCrc bytes) s = .next { s with acc := bytes.foldl Config.chkStep Config.chkInit } :=
  execAll_crcfeeds bytes (clearAcc blockParams s)

/-- The last byte ENC generates is the checksum of the 11 before it (R105). -/
theorem encodeCommand_last (p : Params) (ls rs : Byte) (ld rd : Bool) :
    (encodeCommand p ls rs ld rd)[11] = chk p ((encodeCommand p ls rs ld rd).toList.take 11) := rfl

end Sys2Proof.Machine
end

section
/-! SUPPORT. The statements about the checksum (spec/40_checksum.md), settled. -/

namespace Sys2Proof.Machine

/-- Settles O20: the run performs CRCCLR, which starts ACC anew, then the actions; and feeding the
bytes of TX before its last leaves the checksum ENC put there. -/
theorem engineComputesChkOfTheFedBytes : Obligations.EngineComputesChkOfTheFedBytes := by
  refine ⟨fun acts s hacts => ?_, fun s t ls rs ld rd hexec => ?_⟩
  · have hrun := run_append (.command 0x00000003#32 :: acts) [] s
    rw [List.append_nil] at hrun
    refine ⟨_, hrun, (readWith_crcOut blockParams _).trans ?_⟩
    exact congrArg (· ^^^ Config.chkXorout) (performAll_acc blockParams (clearAcc blockParams s) hacts)
  · rw [exec_eq] at hexec
    cases hexec
    exact ⟨_, execAll_pseudoCrc _ _,
      (readWith_crcOut blockParams _).trans (encodeCommand_last blockParams ls rs ld rd).symm, rfl⟩

/-- Settles O18. -/
theorem crcclrLoadsTheInitialValue : Obligations.CrcclrLoadsTheInitialValue :=
  ⟨fun s => ⟨exec_eq .crcclr s, readWith_crcOut blockParams _⟩,
    fun w => (decode_eq_instr_iff w .crcclr).trans (and_iff_right rfl)⟩

/-- Settles O19: of the commands only CRCFEED has opcode 4, and its word has no bit of 31..16 set. -/
theorem crcfeedStepsTheAccumulator : Obligations.CrcfeedStepsTheAccumulator := by
  refine ⟨fun s b => exec_eq (.crcfeed b) s, fun w hop hhigh => decode_illegal_of_forall_ne fun i hdecode => ?_⟩
  have hopcode := (opField_of_decode hdecode).symm.trans (opField_eq_of_mask (op := 0x04#8) hop)
  cases i with
  | crcfeed b => exact hhigh (highBits_of_decode_crcfeed hdecode)
  | nop | enc | dec | crcclr | rxwr => simp [Laws.EncodedOpcode.opcode] at hopcode

/-- Settles O27. -/
theorem decRejectsABadChecksum : Obligations.DecRejectsABadChecksum := by
  intro s hpre hchk
  have hgood : ¬ checksumGood blockParams s.rx = true := mt (checksumGood_iff blockParams s.rx).1 hchk
  rw [exec_eq, execState, decodeRx_of_badChecksum ((preambleGood_iff s.rx).2 hpre) hgood]
  rfl

end Sys2Proof.Machine
end

section
/-! SUPPORT. What ENC shows in the read space (spec/20_memory.md R51, spec/41_command_encoder.md R121), and the words of
opcode 1 that are no ENC. -/

namespace Sys2Proof

/-- A word that matches `v` under a mask has a zero wherever the mask reaches and `v` has none. -/
theorem and_eq_zero_of_match {n : Nat} {w mask v bits : BitVec n} (hmatch : w &&& mask = v)
    (hmask : mask &&& bits = bits) (hv : v &&& bits = 0#n) : w &&& bits = 0#n := by
  rw [← hmask, ← BitVec.and_assoc, hmatch, hv]

/-- ENC's word has no bit of 31..26 set (R71). -/
theorem highBits_of_decode_enc {w : Word} {ls rs : Byte} {ld rd : Bool} (h : decode w = .instr (.enc ls rs ld rd)) :
    w &&& 0xFC000000#32 = 0#32 := by
  obtain ⟨-, hrow, -⟩ := (decode_eq_instr_iff w _).1 h
  exact and_eq_zero_of_match ((enc_mask_iff w).2 hrow) rfl rfl

end Sys2Proof

namespace Sys2Proof.Machine

section
variable (p : Params) (f : CommandFrame) (s : State)

/-- Loading TX sets bit 2 of STATUS, the bit of TXV, and leaves the others (spec/10_state.md R28). -/
theorem statusByte_loadTx : statusByte (loadTx f s) = statusByte s ||| 0x04#8 := by
  simp only [statusByte, loadTx_ill, loadTx_perr, loadTx_txv, loadTx_fstat]
  generalize s.ill = ill, s.perr = perr, s.txv = txv, fstatCode s.fstat = code
  revert ill perr txv code
  decide

/-- An address above the window of TX, other than that of STATUS, shows nothing of a loading of TX: no other window
holds TX or TXV. -/
theorem readWith_loadTx {a : Byte} (htx : 12 ≤ a.toNat) (hstatus : a ≠ 0x3C#8) :
    readWith p a (loadTx f s) = readWith p a s := by
  have houtTx (g : CommandFrame) : windowByte a.toNat { base := 0x00, bytes := g.toList } = .none :=
    windowByte_outside (.inr (by simpa using htx))
  have houtStatus (c : Byte) : windowByte a.toNat { base := 0x3C, bytes := [c] } = .none := by
    have hne : a.toNat ≠ 0x3C := fun h => hstatus (BitVec.eq_of_toNat_eq h)
    exact windowByte_outside (by simp only [List.length_singleton]; omega)
  simp only [readWith, readMap, findWindow_cons, houtTx, houtStatus]
  rfl

end

end Sys2Proof.Machine
end

section
/-! SUPPORT. The statements about the command encoder (spec/41_command_encoder.md), settled. -/

namespace Sys2Proof.Machine

/-- Settles O24: ENC is a loading of TX, seen through the windows of TX and STATUS and through no other. -/
theorem encReadFrame : Obligations.EncReadFrame := by
  intro s ls rs ld rd
  obtain ⟨htx, -⟩ := readMapIsAsTabulated (execState blockParams (.enc ls rs ld rd) s)
  refine ⟨_, exec_eq _ s, htx, ?_, fun a => readWith_loadTx blockParams _ s⟩
  rw [readByte, readByte, readWith_status, readWith_status]
  exact statusByte_loadTx _ s

/-- Settles O22: of the commands only ENC has opcode 1, and its word has no bit of 31..26 set. -/
theorem encBuildsTheCommandFrame : Obligations.EncBuildsTheCommandFrame := by
  refine ⟨fun s ls rs ld rd => ?_, fun w hop hhigh => decode_illegal_of_forall_ne fun i hdecode => ?_⟩
  · rw [exec_eq, execState, encodeInto, encodeCommand_eq]
    rfl
  · have hopcode := (opField_of_decode hdecode).symm.trans (opField_eq_of_mask (op := 0x01#8) hop)
    cases i with
    | enc ls rs ld rd => exact hhigh (highBits_of_decode_enc hdecode)
    | nop | dec | crcclr | crcfeed | rxwr => simp [Laws.EncodedOpcode.opcode] at hopcode

/-- Settles O23: the header and the zeros are constants of the frame, the direction byte is one of `dirPack`'s four
values, and the last byte is the checksum. -/
theorem encLeavesAWellFormedFrame : Obligations.EncLeavesAWellFormedFrame := by
  intro s ls rs ld rd
  have hdir : dirPack ld rd = 0xA0#8 ∨ dirPack ld rd = 0xB0#8 ∨ dirPack ld rd = 0xE0#8 ∨ dirPack ld rd = 0xF0#8 := by
    simpa using dirPack_mem ld rd
  exact ⟨_, exec_eq _ s, rfl, hdir, ⟨rfl, rfl, rfl⟩, encodeCommand_last blockParams ls rs ld rd⟩

end Sys2Proof.Machine
end

section
/-! SUPPORT. What DEC shows in the read space (spec/20_memory.md R51 and R59), and the parts of a frame its odometry
reads (spec/42_telemetry_decoder.md R144 and R145). -/

namespace Sys2Proof.Machine

/-! ### A valid frame -/

/-- DEC of a valid frame accepts it (spec/42_telemetry_decoder.md R142). -/
theorem decodeRx_of_frameValid {p : Params} {s : State} (h : frameValid p s.rx = true) :
    decodeRx p s = acceptFrame p s.rx s := by
  obtain ⟨hp, hc⟩ := (frameValid_iff p s.rx).1 h
  exact decodeRx_of_valid hp hc

/-! ### The read space -/

/-- A window of one byte says nothing of another address. -/
theorem windowByte_single_of_ne {a base : Nat} (h : a ≠ base) (b : Byte) :
    windowByte a { base := base, bytes := [b] } = .none :=
  windowByte_outside (by simp only [List.length_singleton]; omega)

/-- An address other than that of STATUS shows nothing of FSTAT. -/
theorem readWith_setFstat (p : Params) (r : FrameStatus) (s : State) {a : Byte} (ha : a ≠ 0x3C#8) :
    readWith p a (setFstat r s) = readWith p a s := by
  have hstatus : a.toNat ≠ 0x3C := fun h => ha (BitVec.eq_of_toNat_eq h)
  simp only [readWith, readMap, findWindow_cons, windowByte_single_of_ne hstatus]
  rfl

/-- An address outside the windows of VF, STATUS and the odometry registers shows nothing DEC writes. -/
theorem readWith_decodeRx (p : Params) (s : State) {a : Byte}
    (ha : a.toNat < 0x28 ∨ a.toNat = 0x3D ∨ a.toNat = 0x3E ∨ a.toNat = 0x3F ∨ 0x52 ≤ a.toNat) :
    readWith p a (decodeRx p s) = readWith p a s := by
  have hvf (f : TelemetryFrame) : windowByte a.toNat { base := 0x28, bytes := f.toList } = .none :=
    windowByte_outside (by simp only [Vector.length_toList]; omega)
  have hstatus : a.toNat ≠ 0x3C := by omega
  have hodometry {win : Window} (hbase : 0x40 ≤ win.base) (hend : win.base + win.bytes.length ≤ 0x52) :
      windowByte a.toNat win = .none := windowByte_outside (by omega)
  rw [decodeRx_frame]
  simp [readWith, readMap, findWindow_cons, hvf, windowByte_single_of_ne hstatus, hodometry]

/-! ### What the odometry reads of a frame -/

/-- The left lane lies in the high nibble of the direction byte. -/
theorem laneL_highNibble (db : Byte) : laneL (db &&& 0xF0#8) = laneL db := by
  revert db
  decide

/-- The right lane lies in the high nibble of the direction byte. -/
theorem laneR_highNibble (db : Byte) : laneR (db &&& 0xF0#8) = laneR db := by
  revert db
  decide

section
variable (p : Params) {f f' : TelemetryFrame}

/-- The left wheel's update reads its lane, speed byte and counter of a frame and no other byte
(spec/43_odometry.md R169). -/
theorem odoLeft_congr (hlane : laneL f[5] = laneL f'[5]) (hspd : f[6] = f'[6]) (hlow : f[13] = f'[13])
    (hhigh : f[14] = f'[14]) (w : Wheel) : odoLeft p f w = odoLeft p f' w := by
  simp only [odoLeft, frameDir, frameSpdL, frameRawL, hlane, hspd, hlow, hhigh]

/-- The right wheel's update reads its lane, speed byte and counter of a frame and no other byte
(spec/43_odometry.md R169). -/
theorem odoRight_congr (hlane : laneR f[5] = laneR f'[5]) (hspd : f[7] = f'[7]) (hlow : f[15] = f'[15])
    (hhigh : f[16] = f'[16]) (w : Wheel) : odoRight p f w = odoRight p f' w := by
  simp only [odoRight, frameDir, frameSpdR, frameRawR, hlane, hspd, hlow, hhigh]

end

end Sys2Proof.Machine
end

section
/-! SUPPORT. The statements about the telemetry decoder (spec/42_telemetry_decoder.md), settled. -/

namespace Sys2Proof.Machine

/-- Settles O28: the valid-frame case of `everyBlockDecodesByItsParameters`, with `TICK_LE` true and MOD16 deltas. -/
theorem decAcceptsAValidFrame : Obligations.DecAcceptsAValidFrame := by
  intro s hpre hchk
  obtain ⟨-, -, hvalid⟩ := everyBlockDecodesByItsParameters blockParams s
  exact hvalid hpre hchk

/-- Settles O29: a rejected frame writes FSTAT, which STATUS alone shows; an accepted one stands in VF, and every other
write of DEC lies in the windows excepted. -/
theorem decReadFrame : Obligations.DecReadFrame := by
  intro s
  refine ⟨_, exec_eq .dec s, fun hinvalid a ha => ?_, fun hvalid => ⟨?_, fun a => readWith_decodeRx blockParams s⟩⟩
  · obtain ⟨r, hr⟩ := decodeRx_of_invalid (ne_true_of_eq_false hinvalid)
    rw [execState, hr]
    exact readWith_setFstat blockParams r s ha
  · rw [execState, decodeRx_of_frameValid hvalid]
    obtain ⟨-, -, hvf, -⟩ := readMapIsAsTabulated (acceptFrame blockParams s.rx s)
    exact hvf

/-- Settles O31: both wheels' updates read equal parts of the two frames, and the event is of the wheels stored. -/
theorem odometryIgnoresTheOtherBytes : Obligations.OdometryIgnoresTheOtherBytes := by
  intro s s' t t' hvalid hvalid' hleft hright hsink hnibble hspdL hspdR h13 h14 h15 h16 hexec hexec'
  rw [exec_eq, execState, decodeRx_of_frameValid hvalid, acceptFrame_eq] at hexec
  rw [exec_eq, execState, decodeRx_of_frameValid hvalid', acceptFrame_eq] at hexec'
  cases hexec
  cases hexec'
  have hlaneL : laneL s.rx[5] = laneL s'.rx[5] := by rw [← laneL_highNibble, hnibble, laneL_highNibble]
  have hlaneR : laneR s.rx[5] = laneR s'.rx[5] := by rw [← laneR_highNibble, hnibble, laneR_highNibble]
  have hwheelL : odoLeft blockParams s.rx s.left = odoLeft blockParams s'.rx s'.left :=
    hleft ▸ odoLeft_congr blockParams hlaneL hspdL h13 h14 s.left
  have hwheelR : odoRight blockParams s.rx s.right = odoRight blockParams s'.rx s'.right :=
    hright ▸ odoRight_congr blockParams hlaneR hspdR h15 h16 s.right
  refine ⟨hwheelL, hwheelR, ?_, rfl, rfl⟩
  simp only [hwheelL, hwheelR, hsink]

/-- Settles O26: the bad-preamble case of `everyBlockDecodesByItsParameters`. -/
theorem decRejectsABadPreamble : Obligations.DecRejectsABadPreamble := by
  intro s hpre
  obtain ⟨hbad, -, -⟩ := everyBlockDecodesByItsParameters blockParams s
  exact hbad hpre

end Sys2Proof.Machine
end

section
/-! SUPPORT. The odometry in the registers' own widths (spec/43_odometry.md R160 to R170): the lanes by their masks, the
delta, the stored total, and the wheels after DEC of a valid frame. -/

namespace Sys2Proof.Machine

/-! ### Lanes -/

/-- The left lane is what the mask 0xC0 keeps of the direction byte (R161). -/
theorem laneL_mask (db : Byte) : laneL (db &&& 0xC0#8) = laneL db := by
  revert db
  decide

/-- The right lane is what the mask 0x30 keeps of the direction byte (R161). -/
theorem laneR_mask (db : Byte) : laneR (db &&& 0x30#8) = laneR db := by
  revert db
  decide

/-- The lane code for a direction bit of ENC: 11 for forward, 10 otherwise (spec/41_command_encoder.md R120). -/
def packedLane (forward : Bool) : BitVec 2 := if forward then 0b11#2 else 0b10#2

theorem laneL_dirPack (ld rd : Bool) : laneL (dirPack ld rd) = packedLane ld := by
  revert ld rd
  decide

theorem laneR_dirPack (ld rd : Bool) : laneR (dirPack ld rd) = packedLane rd := by
  revert ld rd
  decide

theorem dirDecode_packedLane (forward : Bool) : dirDecode (packedLane forward) = if forward then 1 else -1 := by
  cases forward <;> rfl

/-- A packed lane never decodes to 0, the direction of a wheel at rest (R170). -/
theorem dirDecode_packedLane_ne_zero (forward : Bool) : dirDecode (packedLane forward) ≠ 0 := by
  cases forward <;> decide

/-! ### The delta -/

/-- Against a baseline of 0 the delta is the reading itself, in both modes (R164). -/
theorem tickDelta_zero (m : DeltaMode) (raw : BitVec 16) : tickDelta m raw 0 = (raw.toNat : Int) := by
  have := raw.isLt
  cases m with
  | mod16 => simp only [tickDelta]; omega
  | int => simp only [tickDelta]; omega

/-- A MOD16 delta is a 16-bit number (R164). -/
theorem tickDelta_mod16_bounds (raw : BitVec 16) (base : Int) :
    0 ≤ tickDelta .mod16 raw base ∧ tickDelta .mod16 raw base ≤ 65535 := by
  simp only [tickDelta]
  omega

/-- An INT delta against a stored reading has 16 bits and a sign (R164). -/
theorem tickDelta_int_bounds (raw base : BitVec 16) :
    -65535 ≤ tickDelta .int raw base.toNat ∧ tickDelta .int raw base.toNat ≤ 65535 := by
  have := raw.isLt
  have := base.isLt
  simp only [tickDelta]
  omega

/-- From the baseline up the difference needs no reduction, so the modes agree (R164). -/
theorem tickDelta_mod16_eq_int {raw base : BitVec 16} (h : base.toNat ≤ raw.toNat) :
    tickDelta .mod16 raw base.toNat = tickDelta .int raw base.toNat := by
  have := raw.isLt
  simp only [tickDelta]
  omega

/-! ### The updated wheel -/

section
variable (p : Params) (w : Wheel) (d : Int) (s : Byte) (raw : BitVec 16)

/-- The total moves by direction times delta in the register's own 32-bit arithmetic (R165). -/
theorem odoUpdate_tck :
    (odoUpdate p w d s raw).tck =
      w.tck + BitVec.ofInt 32 (d * tickDelta p.deltaMode raw (baseline w d (signedSpeed d s))) := by
  rw [odoUpdate, BitVec.ofInt_add, BitVec.ofInt_natCast, BitVec.ofNat_toNat, BitVec.setWidth_eq]

/-- A wheel whose direction is 0 is stored with speed 0 (R162). -/
theorem odoUpdate_zero_spd : (odoUpdate p w 0 s raw).spd = 0#16 := by
  rw [odoUpdate, signedSpeed, Int.zero_mul]
  rfl

end

/-- The wheels stored by DEC of a valid frame (spec/42_telemetry_decoder.md R142). -/
theorem exec_dec_wheels {s t : State} (hvalid : frameValid blockParams s.rx = true) (hexec : exec .dec s = .next t) :
    t.left = odoLeft blockParams s.rx s.left ∧ t.right = odoRight blockParams s.rx s.right := by
  rw [exec_eq, execState, decodeRx_of_frameValid hvalid, acceptFrame_eq] at hexec
  cases hexec
  exact ⟨rfl, rfl⟩

end Sys2Proof.Machine
end

section
/-! SUPPORT. The statements about the odometry (spec/43_odometry.md), settled. -/

namespace Sys2Proof.Machine

/-- Settles O32: a wheel is stored as its update from the frame, which reads its own lane, speed byte and counter; equal
masked direction bytes have equal lanes. -/
theorem wheelsAreIndependent : Obligations.WheelsAreIndependent := by
  intro s s' t t' hvalid hvalid' hexec hexec'
  obtain ⟨hleft, hright⟩ := exec_dec_wheels hvalid hexec
  obtain ⟨hleft', hright'⟩ := exec_dec_wheels hvalid' hexec'
  refine ⟨fun hw hmask hspd hlow hhigh => ?_, fun hw hmask hspd hlow hhigh => ?_⟩
  · have hlane : laneL s.rx[5] = laneL s'.rx[5] := by rw [← laneL_mask, hmask, laneL_mask]
    rw [hleft, hleft', hw, odoLeft_congr blockParams hlane hspd hlow hhigh]
  · have hlane : laneR s.rx[5] = laneR s'.rx[5] := by rw [← laneR_mask, hmask, laneR_mask]
    rw [hright, hright', hw, odoRight_congr blockParams hlane hspd hlow hhigh]

/-- Settles O36: the signed speed fits an i16, so storing it loses nothing. -/
theorem signedSpeedIsExact : Obligations.SignedSpeedIsExact := by
  intro p w d s raw hd
  have hspd : (odoUpdate p w d s raw).spd.toInt = signedSpeed d s := storedSpeed_toInt hd s
  obtain ⟨hlow, hhigh⟩ := signedSpeed_bounds hd s
  rw [hspd]
  refine ⟨rfl, hlow, hhigh, ?_⟩
  rintro rfl
  exact odoUpdate_zero_spd p w s raw

/-- Settles O37: the three conditions are those of the reset policy, and the total moves by the delta against the
baseline it gives. -/
theorem baselineResetsInExactlyThreeCases : Obligations.BaselineResetsInExactlyThreeCases := by
  intro p w d s raw _
  refine ⟨fun hreset => ?_, fun hkeep => ?_, rfl⟩
  · have hbase : baseline w d (signedSpeed d s) = 0 := baseline_of_reset ((resetBase_iff w d _).2 hreset)
    rw [odoUpdate_tck, hbase, tickDelta_zero]
  · have hbase : baseline w d (signedSpeed d s) = (w.raw.toNat : Int) :=
      baseline_of_keep (Bool.eq_false_iff.2 fun h => hkeep ((resetBase_iff w d _).1 h))
    rw [odoUpdate_tck, hbase]

/-- Settles O39. -/
theorem odoUpdateFollowsTheRules : Obligations.OdoUpdateFollowsTheRules :=
  fun p w _ s raw hd => odoUpdate_followsRules p w s raw hd

/-- Settles O25: each lane ENC packs is the code of its direction bit. -/
theorem packedLanesDecodeBack : Obligations.PackedLanesDecodeBack := by
  intro ld rd
  rw [laneL_dirPack, laneR_dirPack]
  exact ⟨dirDecode_packedLane ld, dirDecode_packedLane rd, dirDecode_packedLane_ne_zero ld,
    dirDecode_packedLane_ne_zero rd⟩

/-- Settles O34: the four codes are the cases of `dirDecode`. -/
theorem lanesDecodeByTheirMasks : Obligations.LanesDecodeByTheirMasks :=
  ⟨rfl, rfl, rfl, rfl, fun db => ⟨dirDecode_laneL db, dirDecode_laneR db⟩⟩

/-- Settles O38. -/
theorem tickDeltaInBothModes : Obligations.TickDeltaInBothModes := by
  refine ⟨fun raw base => ?_, rfl⟩
  obtain ⟨hmodLow, hmodHigh⟩ := tickDelta_mod16_bounds raw base.toNat
  obtain ⟨hintLow, hintHigh⟩ := tickDelta_int_bounds raw base
  exact ⟨rfl, rfl, hmodLow, hmodHigh, hintLow, hintHigh, tickDelta_mod16_eq_int⟩

end Sys2Proof.Machine
end

section
/-! SUPPORT. The words of opcodes 0, 2, 3 and 5 that are no command (spec/30_encoding.md R77), what a step does with such
a word (spec/44_buffer_and_control.md R192), and what RXWR shows in the read space (spec/20_memory.md R51). -/

namespace Sys2Proof

/-! ### Words that are no command -/

/-- A command is the one its word's masked opcode names (R73). -/
theorem opcode_of_mask {w : Word} {i : Instr} {op : Byte} (hdecode : decode w = .instr i)
    (hop : w &&& 0xFF#32 = op.setWidth 32) : Laws.EncodedOpcode.opcode i = op :=
  (opField_of_decode hdecode).symm.trans (opField_eq_of_mask hop)

/-- A word with the opcode of NOP, DEC or CRCCLR and any other bit set is ill-formed: each has one word (R73). -/
theorem decode_of_reservedBits_noOperands {w : Word}
    (hop : w &&& 0xFF#32 = 0#32 ∨ w &&& 0xFF#32 = 2#32 ∨ w &&& 0xFF#32 = 3#32) (hhigh : w &&& 0xFFFFFF00#32 ≠ 0#32) :
    ∃ why, decode w = .illegal why := by
  refine decode_illegal_of_forall_ne fun i hdecode => ?_
  have hopcode : Laws.EncodedOpcode.opcode i = 0x00#8 ∨ Laws.EncodedOpcode.opcode i = 0x02#8 ∨
      Laws.EncodedOpcode.opcode i = 0x03#8 :=
    hop.imp (opcode_of_mask hdecode) (.imp (opcode_of_mask hdecode) (opcode_of_mask hdecode))
  cases i with
  | nop | dec | crcclr =>
    obtain ⟨-, rfl⟩ := (decode_eq_instr_iff w _).1 hdecode
    exact hhigh rfl
  | enc | crcfeed | rxwr => simp [Laws.EncodedOpcode.opcode] at hopcode

/-- RXWR's word has no bit of 31..21 set, and an index below 20 (R71, R77). -/
theorem fields_of_decode_rxwr {w : Word} {idx : BitVec 5} {b : Byte} (h : decode w = .instr (.rxwr idx b)) :
    w &&& 0xFFE00000#32 = 0#32 ∧ ((w >>> 16) &&& 0x1F#32).toNat < 20 := by
  obtain ⟨hwf, hrow, rfl, -⟩ := (decode_eq_instr_iff w _).1 h
  exact ⟨and_eq_zero_of_match ((rxwr_mask_iff w).2 hrow) rfl rfl,
    (idxField_mask_toNat w).trans_lt (of_decide_eq_true hwf)⟩

/-- A word with the opcode of RXWR and a reserved bit set or an index outside RX is ill-formed (R77). -/
theorem decode_of_badRxwr {w : Word} (hop : w &&& 0xFF#32 = 5#32)
    (hbad : w &&& 0xFFE00000#32 ≠ 0#32 ∨ 20 ≤ ((w >>> 16) &&& 0x1F#32).toNat) : ∃ why, decode w = .illegal why := by
  refine decode_illegal_of_forall_ne fun i hdecode => ?_
  have hopcode : Laws.EncodedOpcode.opcode i = 0x05#8 := opcode_of_mask hdecode hop
  cases i with
  | rxwr idx b =>
    obtain ⟨hbits, hidx⟩ := fields_of_decode_rxwr hdecode
    exact hbad.elim (absurd hbits) (Nat.not_le.2 hidx)
  | nop | enc | dec | crcclr | crcfeed => simp [Laws.EncodedOpcode.opcode] at hopcode

end Sys2Proof

namespace Sys2Proof.Machine

/-- A step that takes an ill-formed word sets ILL and writes nothing else (spec/44_buffer_and_control.md R192). -/
theorem step_illFormed {s : State} {w : Word} {rest : List HostAction} (hport : s.port = .command w :: rest)
    (hillegal : ∃ why, decode w = .illegal why) : step s = .next { s with port := rest, ill := true } := by
  obtain ⟨why, hdecode⟩ := hillegal
  rw [step_cons hport, perform, hdecode]
  rfl

/-! ### RXWR in the read space -/

/-- A write to a buffer shows in its window at the byte's own address only. -/
theorem windowByte_set_of_ne {a base i n : Nat} (ha : a ≠ base + i) (v : Vector Byte n) (b : Byte) :
    windowByte a { base := base, bytes := (v.setIfInBounds i b).toList } =
      windowByte a { base := base, bytes := v.toList } := by
  by_cases hle : base ≤ a
  · have hne : i ≠ a - base := by omega
    simp [windowByte, hle, List.getElem?_set_ne hne]
  · simp [windowByte, hle]

section
variable (p : Params) (s : State) (b : Byte) {a : Byte} {i : Nat}

/-- The address of the byte written to RX reads as that byte. -/
theorem readWith_writeRx_same (hi : i < 20) (ha : a.toNat = 0x10 + i) : readWith p a (writeRx i b s) = b := by
  have hmem : { base := 0x10, bytes := (s.rx.setIfInBounds i b).toList } ∈ readMap p (writeRx i b s) := by
    simp [readMap]
  exact (readWith_window p hmem (by simpa using hi) ha).trans (by simp)

/-- Every other address reads as before the write: RX shows in its own window alone. -/
theorem readWith_writeRx_of_ne (ha : a.toNat ≠ 0x10 + i) : readWith p a (writeRx i b s) = readWith p a s := by
  simp only [readWith, readMap, findWindow_cons, writeRx_rx, windowByte_set_of_ne ha]
  rfl

end

end Sys2Proof.Machine
end

section
/-! SUPPORT. The statements about the buffer and control commands (spec/44_buffer_and_control.md), settled. -/

namespace Sys2Proof.Machine

/-- Settles O15: of the commands only RXWR has opcode 5, with no bit of 31..21 set and an index of RX. -/
theorem rxwrWritesOneByte : Obligations.RxwrWritesOneByte :=
  ⟨fun s idx b hidx => ⟨s.rx.setIfInBounds idx.toNat b, exec_rxwr hidx b s, writeRx_get s idx.toNat b⟩,
    fun _ => decode_of_badRxwr⟩

/-- Settles O8: no word of the kinds listed decodes to a command, and no well-formed command writes ILL. -/
theorem illFormedWordSetsOnlyIll : Obligations.IllFormedWordSetsOnlyIll := by
  obtain ⟨-, henc⟩ := encBuildsTheCommandFrame
  obtain ⟨-, hfeed⟩ := crcfeedStepsTheAccumulator
  refine ⟨fun s w rest hport hkind => step_illFormed hport ?kinds, fun i s t hwf hill hexec => ?sticky,
    ⟨_, step_illFormed rfl ⟨.reservedOpcode 6#8, rfl⟩, ?status⟩⟩
  case kinds =>
    obtain hop | ⟨hop, hbits⟩ | ⟨hop, hbits⟩ | ⟨hop, hbits⟩ | ⟨hop, hbits⟩ | ⟨hop, hidx⟩ := hkind
    · exact decode_of_reservedOpcode ((opField_mask_toNat w).symm ▸ hop)
    · exact decode_of_reservedBits_noOperands hop hbits
    · exact henc w hop hbits
    · exact hfeed w hop hbits
    · exact decode_of_badRxwr hop (.inl hbits)
    · exact decode_of_badRxwr hop (.inr hidx)
  case sticky =>
    rw [exec_eq] at hexec
    cases hexec
    exact (execState_ill blockParams s hwf).trans hill
  case status =>
    rw [readByte, readWith_status]
    rfl

/-- Settles O16: RXWR is a write of one byte of RX, seen at that byte's address and at no other. -/
theorem rxwrReadFrame : Obligations.RxwrReadFrame := by
  intro s idx b hidx
  refine ⟨_, exec_rxwr hidx b s, fun a => ?_⟩
  split
  case isTrue ha => exact readWith_writeRx_same blockParams s b hidx ha
  case isFalse ha => exact readWith_writeRx_of_ne blockParams s b ha

/-- Settles O14: the row of NOP is the zero word. -/
theorem nopChangesNothing : Obligations.NopChangesNothing :=
  ⟨exec_eq .nop, fun w => (decode_eq_instr_iff w .nop).trans (and_iff_right rfl)⟩

end Sys2Proof.Machine
end

section
/-! SUPPORT. The statements about exceptions and idle steps (spec/60_exceptions.md), settled. -/

namespace Sys2Proof.Machine

/-- Settles O11: an empty port fetches nothing, so the step has no action to perform. -/
theorem idlePortKeepsTheState : Obligations.IdlePortKeepsTheState := fun _ => step_nil

end Sys2Proof.Machine
end

section
/-! SUPPORT. STATUS after reset (spec/70_reset_and_hazards.md R240), and accepting one frame twice: the odometry stays
as the first time left it (R246, spec/43_odometry.md R163 to R165). -/

namespace Sys2Proof.Machine

/-- A reset block shows no flag in STATUS, and FSTAT as NONE. -/
theorem statusByte_resetEvent (p : Params) (s : State) : statusByte (resetEvent p s) = 0x00#8 := by
  simp [statusByte, State.resetWith, fstatCode]

section
variable (p : Params) (w : Wheel) {d : Int} (s : Byte) (raw : BitVec 16)

/-- A wheel moving at the direction and speed stored in it keeps its baseline: no condition of R163 holds. -/
theorem baseline_odoUpdate (hd : d = -1 ∨ d = 0 ∨ d = 1) (hmoving : d ≠ 0) :
    baseline (odoUpdate p w d s raw) d (signedSpeed d s) = (raw.toNat : Int) := by
  refine baseline_of_keep (Bool.eq_false_iff.2 fun hreset => ?_)
  obtain hstop | hturn | ⟨hrest, hstart⟩ := (resetBase_iff _ _ _).1 hreset
  · exact hmoving hstop
  · exact hturn (storedDir_toInt hd).symm
  · exact hstart ((storedSpeed_toInt hd s).symm.trans hrest)

/-- A reading has no delta against itself, in both modes (R164). -/
theorem tickDelta_self (m : DeltaMode) : tickDelta m raw raw.toNat = 0 := by
  cases m <;> simp [tickDelta]

/-- A second update from the same lane, speed byte and reading moves no tick: a stopped wheel multiplies the delta by
0, and a moving one has the delta of its reading against itself (spec/70_reset_and_hazards.md R246). -/
theorem odoUpdate_odoUpdate (hd : d = -1 ∨ d = 0 ∨ d = 1) :
    odoUpdate p (odoUpdate p w d s raw) d s raw = odoUpdate p w d s raw := by
  have hticks : (odoUpdate p (odoUpdate p w d s raw) d s raw).tck = (odoUpdate p w d s raw).tck := by
    rw [odoUpdate_tck p (odoUpdate p w d s raw)]
    obtain rfl | hmoving := eq_or_ne d 0
    · simp
    · simp [baseline_odoUpdate p w s raw hd hmoving, tickDelta_self]
  exact congrArg (fun tck => { odoUpdate p w d s raw with tck := tck }) hticks

end

/-- A second update of the left wheel from one frame changes nothing. -/
theorem odoLeft_odoLeft (p : Params) (f : TelemetryFrame) (w : Wheel) :
    odoLeft p f (odoLeft p f w) = odoLeft p f w :=
  odoUpdate_odoUpdate p w _ _ (dirDecode_cases _)

/-- A second update of the right wheel from one frame changes nothing. -/
theorem odoRight_odoRight (p : Params) (f : TelemetryFrame) (w : Wheel) :
    odoRight p f (odoRight p f w) = odoRight p f w :=
  odoUpdate_odoUpdate p w _ _ (dirDecode_cases _)

/-- Accepting a frame a second time emits the event of the stored wheels again and changes nothing else. -/
theorem acceptFrame_acceptFrame (p : Params) (f : TelemetryFrame) (s : State) :
    acceptFrame p f (acceptFrame p f s) =
      emitSink (sinkEvent (odoLeft p f s.left) (odoRight p f s.right)) (acceptFrame p f s) := by
  simp only [acceptFrame_eq, odoLeft_odoLeft, odoRight_odoRight]
  rfl

/-- DEC of the modelled block accepts a valid frame (spec/42_telemetry_decoder.md R142). -/
theorem exec_dec_of_frameValid {s : State} (h : frameValid blockParams s.rx = true) :
    exec .dec s = .next (acceptFrame blockParams s.rx s) :=
  (exec_eq .dec s).trans (congrArg _ (decodeRx_of_frameValid h))

end Sys2Proof.Machine
end

section
/-! SUPPORT. The statements about reset and hazards (spec/70_reset_and_hazards.md), settled. -/

namespace Sys2Proof.Machine

/-- Settles O30: the first DEC leaves RX as it was, so the second accepts the same frame again. -/
theorem repeatedDecAddsNoTicks : Obligations.RepeatedDecAddsNoTicks := by
  intro s t hvalid hexec
  rw [exec_dec_of_frameValid hvalid] at hexec
  cases hexec
  have hagain : exec .dec (acceptFrame blockParams s.rx s) =
      .next (acceptFrame blockParams s.rx (acceptFrame blockParams s.rx s)) := exec_dec_of_frameValid hvalid
  exact ⟨_, rfl, hagain.trans (congrArg _ (acceptFrame_acceptFrame blockParams s.rx s))⟩

/-- Settles O10: the step performs the reset event, whose elements are those of the blank state, and the two reads are
of STATUS and CRCOUT. -/
theorem resetEventWritesEveryElement : Obligations.ResetEventWritesEveryElement := by
  intro s rest hport
  refine ⟨_, step_cons hport, fun i => Vector.getElem_replicate .., fun i => Vector.getElem_replicate ..,
    fun i => Vector.getElem_replicate .., rfl, rfl, rfl, rfl, rfl, rfl, rfl, rfl, ?status, ?crcOut⟩
  case status => exact (readWith_status blockParams _).trans (statusByte_resetEvent blockParams _)
  case crcOut => exact readWith_crcOut blockParams _

/-- Settles O33: the blank RX starts with 0x00, not with the preamble. -/
theorem decAtResetReportsPreambleMismatch : Obligations.DecAtResetReportsPreambleMismatch := by
  have hpre : ¬ preambleGood State.reset.rx = true := by decide
  exact congrArg _ (decodeRx_of_badPreamble hpre)

end Sys2Proof.Machine
end
